-- ==== Sys2Proof/Word.lean ====
section
/-! DEFINITION. Word.lean: the word types of the core, one name for each width the spec gives (00_scope.md rule R3). -/

namespace Sys2Proof

/-- A host transaction word, format H: 68 bits, `WE` in bit 67, `SEL` in bits 66:64, `DATA` in bits 63:0 (R50, R51). -/
abbrev HWord := BitVec 68

/-- A 64-bit value: a Block, a Key, the data of a host transaction (R3). -/
abbrev Block := BitVec 64

/-- A half-block, 32 bits (R3). -/
abbrev Half := BitVec 32

/-- A key half register, 28 bits (R3). -/
abbrev KeyHalf := BitVec 28

/-- A round subkey, 48 bits (R3). -/
abbrev Subkey := BitVec 48

/-- A byte of a byte buffer (R6). -/
abbrev Byte := BitVec 8

end Sys2Proof
end

