-- ==== Sys2Proof/Syntax.lean ====
section
/-! DEFINITION. Syntax.lean: the host transactions and commands, one constructor per row of spec/opcode_table.json. -/

namespace Sys2Proof

/-- The fourteen rows of the opcode table (30_encoding.md R52, R53). -/
inductive Instr where
  /-- `RDDIN`: read the input block register (R156). -/
  | rddin
  /-- `RDDOUT`: read the output block register (R157). -/
  | rddout
  /-- `RDKEY`: read the key register (R158). -/
  | rdkey
  /-- `RDMODE`: read the control and status register (R162). -/
  | rdmode
  /-- `RDKSK i`: read the subkey of KeySet entry `i` (R159). -/
  | rdksk (i : BitVec 5)
  /-- `RDKSC i`: read the left key half of KeySet entry `i` (R160). -/
  | rdksc (i : BitVec 5)
  /-- `RDKSD i`: read the right key half of KeySet entry `i` (R161). -/
  | rdksd (i : BitVec 5)
  /-- `WRDIN v`: write the input block register (R154). -/
  | wrdin (v : Block)
  /-- `WRKEY v`: write the key register (R151). -/
  | wrkey (v : Block)
  /-- Command 0, decrypt (R132). -/
  | dec
  /-- Command 1, encrypt (R131). -/
  | enc
  /-- Command 2, generate a key (R152). -/
  | genkey
  /-- Command 3, no operation (R153). -/
  | done
  /-- Command 4, derive the key schedule (R93). -/
  | keysched
deriving DecidableEq, Repr

/-- Why a word decodes to no transaction: the reasons of 60_exceptions.md R172 that the word alone decides. -/
inductive WordRefusal where
  /-- `SEL = 4`. -/
  | reservedSelect
  /-- A write to `DOUT` or to a `KS` view. -/
  | readOnlyWrite
  /-- A must-be-zero part of `DATA` is not zero. -/
  | nonZeroReserved
  /-- A `KS` read with index 17 to 31. -/
  | indexOutOfRange
  /-- A `MODE` write with code 5, 6 or 7. -/
  | reservedCommand
deriving DecidableEq, Repr

end Sys2Proof
end

