-- ==== Sys2Proof/WellFormed.lean ====
section
/-! DEFINITION. WellFormed.lean: which terms of Instr are transactions: a KeySet index is 0 to 16 (30_encoding.md R51). -/

namespace Sys2Proof

/-- A KeySet index the host may name (R51: "the KeySet index `IDX`, 0 to 16"). -/
def indexOk (i : BitVec 5) : Bool := decide (i.toNat ≤ 16)

/-- Every field of the instruction is in the range the spec gives it. -/
def Instr.wf : Instr → Bool
  | .rddin => true
  | .rddout => true
  | .rdkey => true
  | .rdmode => true
  | .rdksk i => indexOk i
  | .rdksc i => indexOk i
  | .rdksd i => indexOk i
  | .wrdin _ => true
  | .wrkey _ => true
  | .dec => true
  | .enc => true
  | .genkey => true
  | .done => true
  | .keysched => true

end Sys2Proof
end

