-- ==== Sys2Proof/Decode.lean ====
section
/-! DEFINITION. Decode.lean: decoding an H word (30_encoding.md R50 to R55), total and refusing by name, and encoding. -/

namespace Sys2Proof

/-- The first hexadecimal digit of an H word, `WE‖SEL` (R51, R53). -/
def HWord.digit (w : HWord) : BitVec 4 := w.extractLsb' 64 4

/-- The `DATA` field, bits 63:0 (R51). -/
def HWord.data (w : HWord) : Block := w.extractLsb' 0 64

/-- The `IDX` field of a `KS` read, `DATA[4:0]` (R51). -/
def HWord.idx (w : HWord) : BitVec 5 := w.extractLsb' 0 5

/-- The `CODE` field of a command, `DATA[2:0]` (R52). -/
def HWord.code (w : HWord) : BitVec 3 := w.extractLsb' 0 3

/-- `DATA[63:5] = 0`, what a `KS` read requires above its index (R51). -/
def HWord.zeroAboveIdx (w : HWord) : Bool := w.extractLsb' 5 59 == 0

/-- `DATA[63:3] = 0`, what a `MODE` write requires above its code (R52). -/
def HWord.zeroAboveCode (w : HWord) : Bool := w.extractLsb' 3 61 == 0

/-- A read of `SEL` 0 to 3: `DATA` must be zero (R51, R54). -/
def decodeRegRead (w : HWord) (i : Instr) : Except WordRefusal Instr :=
  if w.data = 0 then .ok i else .error .nonZeroReserved

/-- A read of `SEL` 5 to 7: the reserved part first, then the index (R54, R175). -/
def decodeKsRead (w : HWord) (mk : BitVec 5 → Instr) : Except WordRefusal Instr :=
  if w.zeroAboveIdx then
    if indexOk w.idx then .ok (mk w.idx) else .error .indexOutOfRange
  else .error .nonZeroReserved

/-- The command a code names (R52). -/
def decodeCode (code : BitVec 3) : Except WordRefusal Instr :=
  match code.toNat with
  | 0 => .ok .dec
  | 1 => .ok .enc
  | 2 => .ok .genkey
  | 3 => .ok .done
  | 4 => .ok .keysched
  | _ => .error .reservedCommand

/-- A `MODE` write: the reserved part first, then the code (R155). -/
def decodeCommand (w : HWord) : Except WordRefusal Instr :=
  if w.zeroAboveCode then decodeCode w.code else .error .nonZeroReserved

/-- Decoding by the first digit (the table of R53). -/
def decode (w : HWord) : Except WordRefusal Instr :=
  match w.digit.toNat with
  | 0x0 => decodeRegRead w .rddin
  | 0x1 => decodeRegRead w .rddout
  | 0x2 => decodeRegRead w .rdkey
  | 0x3 => decodeRegRead w .rdmode
  | 0x4 => .error .reservedSelect
  | 0x5 => decodeKsRead w .rdksk
  | 0x6 => decodeKsRead w .rdksc
  | 0x7 => decodeKsRead w .rdksd
  | 0x8 => .ok (.wrdin w.data)
  | 0x9 => .error .readOnlyWrite
  | 0xA => .ok (.wrkey w.data)
  | 0xB => decodeCommand w
  | 0xC => .error .reservedSelect
  | _ => .error .readOnlyWrite

/-- An H word from its first digit and its `DATA` (R51: "the first digit is `WE‖SEL` and the other 16 are `DATA`"). -/
def hword (digit : BitVec 4) (data : Block) : HWord := digit ++ data

/-- The H word of each transaction (R52, R62). -/
def encode : Instr → HWord
  | .rddin => hword 0x0 0
  | .rddout => hword 0x1 0
  | .rdkey => hword 0x2 0
  | .rdmode => hword 0x3 0
  | .rdksk i => hword 0x5 (i.setWidth 64)
  | .rdksc i => hword 0x6 (i.setWidth 64)
  | .rdksd i => hword 0x7 (i.setWidth 64)
  | .wrdin v => hword 0x8 v
  | .wrkey v => hword 0xA v
  | .dec => hword 0xB 0
  | .enc => hword 0xB 1
  | .genkey => hword 0xB 2
  | .done => hword 0xB 3
  | .keysched => hword 0xB 4

/-- One row of the opcode table as the spec prints it: a word `w` selects the row when `w & mask = pattern`. -/
structure OpcodeRow where
  pattern : HWord
  mask    : HWord
deriving DecidableEq, Repr

/-- The row of spec/opcode_table.json that an instruction belongs to. -/
def Instr.row : Instr → OpcodeRow
  | .rddin => ⟨0x00000000000000000, 0xFFFFFFFFFFFFFFFFF⟩
  | .rddout => ⟨0x10000000000000000, 0xFFFFFFFFFFFFFFFFF⟩
  | .rdkey => ⟨0x20000000000000000, 0xFFFFFFFFFFFFFFFFF⟩
  | .rdmode => ⟨0x30000000000000000, 0xFFFFFFFFFFFFFFFFF⟩
  | .rdksk _ => ⟨0x50000000000000000, 0xFFFFFFFFFFFFFFFE0⟩
  | .rdksc _ => ⟨0x60000000000000000, 0xFFFFFFFFFFFFFFFE0⟩
  | .rdksd _ => ⟨0x70000000000000000, 0xFFFFFFFFFFFFFFFE0⟩
  | .wrdin _ => ⟨0x80000000000000000, 0xF0000000000000000⟩
  | .wrkey _ => ⟨0xA0000000000000000, 0xF0000000000000000⟩
  | .dec => ⟨0xB0000000000000000, 0xFFFFFFFFFFFFFFFFF⟩
  | .enc => ⟨0xB0000000000000001, 0xFFFFFFFFFFFFFFFFF⟩
  | .genkey => ⟨0xB0000000000000002, 0xFFFFFFFFFFFFFFFFF⟩
  | .done => ⟨0xB0000000000000003, 0xFFFFFFFFFFFFFFFFF⟩
  | .keysched => ⟨0xB0000000000000004, 0xFFFFFFFFFFFFFFFFF⟩

/-- The bits of a table row as a number: those below `nbits`; a row has 68 bits, printed in 72. -/
def tableBits (nbits w : Nat) : Nat := w % 2 ^ nbits

/-- The H word whose bits are `w`, the bits above `nbits` zero (log 15). -/
def hwordOfTable (nbits w : Nat) : HWord := BitVec.ofNat 68 (tableBits nbits w)

/-- What the decoder reads from an instruction whose bits are `w`, numbered as spec/opcode_table.json numbers them. A
number with a bit above 67 is no H word (R50: "68 bits wide"), so it is refused (log 15). -/
def decodeTableWord (nbits w : Nat) : Option Instr :=
  if tableBits nbits w < 2 ^ 68 then
    match decode (hwordOfTable nbits w) with
    | .ok i => some i
    | .error _ => none
  else none

end Sys2Proof
end

