-- ==== Sys2Proof/Config.lean ====
section
/-! DEFINITION. Config.lean: what the spec leaves open as a parameter (00_scope.md R3: `Entropy`, `ResetData`), and the
types these parameters speak of. `Latency` is no constant: every interleaving is a list of turns in State. -/

namespace Sys2Proof

/-- One entry of the key-schedule file (10_state.md R14): the round subkey `k` and the two key halves `c`, `d`. -/
structure KeySet where
  k : Subkey
  c : KeyHalf
  d : KeyHalf
deriving DecidableEq, Repr, Inhabited

/-- `ResetData`: a value for every register that R23 leaves unspecified after reset. -/
structure ResetData where
  key  : Block
  din  : Block
  dout : Block
  ks   : Vector KeySet 17
  l    : Half
  r    : Half
  c    : KeyHalf
  d    : KeyHalf
deriving DecidableEq, Repr, Inhabited

/-- The values the data registers hold in `State.reset` (R23, R190). It has no body: no proof can see a value of it, zero
least of all ("It must not take them as zero"). DESIGN CHOICE, log 4. -/
opaque Config.resetData : ResetData

/-- `draw_64(Entropy)`: the value of the `n`-th draw (10_state.md R22, 44_control_ops.md R152). It has no body: a claim
about a draw holds for any value. A free value, DESIGN CHOICE, log 5. -/
opaque Config.entropy : Nat → Block

/-- What a core holds after a refused transaction: its registers and what it answers, of which the spec "says nothing"
(60_exceptions.md R172). -/
structure LostState where
  mode  : BitVec 3
  rnd   : BitVec 5
  data  : ResetData
  rdata : Option Block
deriving DecidableEq, Repr, Inhabited

/-- The state of a refused core, anew at each step until reset. It has no body: a claim about a refused core holds for any
values. A free value, DESIGN CHOICE, log 7. -/
opaque Config.lost : Nat → LostState

end Sys2Proof
end

