-- ==== Sys2Proof/Machine/State.lean ====
section
/-! DEFINITION. Machine/State.lean: the state of the core (10_state.md), plain data, with the reasons a step stops. -/

namespace Sys2Proof.Machine

/-- One coming move of an agent (44_control_ops.md R150): the host issues an H word, the block agent takes its step, or
reset happens and leaves the data it carries in the registers R23 calls unspecified. -/
inductive Turn where
  | host (w : HWord)
  | block
  | reset (data : ResetData)
deriving DecidableEq, Repr

/-- Why the machine stops with a fault. No state that satisfies `Safety.Inv` faults. -/
inductive Fault where
  /-- Raised by a block step in a pair `(MODE, RND)` outside the table of R18, "unreachable": safe, no run gets there. -/
  | unreachableSequencer
  /-- The source's width error (R170). Raised by no step: widths are types. Safe. -/
  | invalidLength
  /-- The source's table error (R173). Raised by no step: the tables are valid constants (R80). Safe. -/
  | invalidTable
deriving DecidableEq, Repr

/-- Why a host transaction is refused: the closed list of 60_exceptions.md R172, "the spec gives this no meaning". `exec`
answers it, and `step` puts it into the refused mark. Each is safe: nothing can be proved of the core from there to the
next reset. -/
inductive Refusal where
  /-- Answered only by an arm of `exec` whose instruction has no meaning yet; no arm does. Safe. -/
  | notModelled (mnemonic : String)
  /-- Raised by the decoder: `SEL = 4`. Safe. -/
  | reservedSelect
  /-- Raised by the decoder: a write to `DOUT` or to a `KS` view. Safe. -/
  | readOnlyWrite
  /-- Raised by the decoder: a must-be-zero part of `DATA` is not zero. Safe. -/
  | nonZeroReserved
  /-- Raised by the decoder, and by a `KS` read whose term is ill-formed: index 17 to 31. Safe. -/
  | indexOutOfRange
  /-- Raised by the decoder: a `MODE` write with code 5, 6 or 7. Safe. -/
  | reservedCommand
  /-- Raised by WRKEY, WRDIN and every command while `MODE ≠ 3` (R164). Safe. -/
  | busyWrite
  /-- Raised by RDKSK, RDKSC, RDKSD while `MODE = 4` (R164). Safe. -/
  | busyScheduleRead
deriving DecidableEq, Repr

/-- The state: the tuple of R10, the refused mark of R172, then the model's own three fields (log 2, 5, 6). -/
structure State where
  /-- `MODE`, the command and status register (R16). -/
  mode  : BitVec 3
  /-- `RND`, the round counter (R18). -/
  rnd   : BitVec 5
  /-- `KEY`, the main key (R11). -/
  key   : Block
  /-- `DIN`, the input block (R12). -/
  din   : Block
  /-- `DOUT`, the output block (R13). -/
  dout  : Block
  /-- `KS[0..16]`, the key-schedule file (R14). -/
  ks    : Vector KeySet 17
  /-- `L`, the left half of the block state (R19). -/
  l     : Half
  /-- `R`, the right half of the block state (R19). -/
  r     : Half
  /-- `C`, the left key half register (R20). -/
  c     : KeyHalf
  /-- `D`, the right key half register (R20). -/
  d     : KeyHalf
  /-- The refused mark: the reason of the first refused transaction since reset (60_exceptions.md R172, R190; log 7). -/
  refusal : Option Refusal
  /-- `RDATA` of the latest host transaction; none when it was a write (R51). The model's own, log 6. -/
  rdata : Option Block
  /-- The coming moves, oldest first: one interleaving of the agents (R41). The model's own, log 2. -/
  turns : List Turn
  /-- How many free values were taken: draws of the entropy source and states of a refused core. The model's own, log 5. -/
  draws : Nat
deriving DecidableEq, Repr

/-- What a step answers. -/
abbrev Out := Host.Outcome State Fault Refusal

/-- The state after a reset that leaves `data` in the unspecified registers (R23, R190): idle, not refused, no turn to
come. -/
def State.resetWith (data : ResetData) : State where
  mode  := 3
  rnd   := 0
  key   := data.key
  din   := data.din
  dout  := data.dout
  ks    := data.ks
  l     := data.l
  r     := data.r
  c     := data.c
  d     := data.d
  refusal := none
  rdata := none
  turns := []
  draws := 0

/-- The machine right after reset, its unspecified registers holding `Config.resetData` (R23; log 4). -/
def State.reset : State := State.resetWith Config.resetData

end Sys2Proof.Machine
end

