-- ==== Sys2Proof/Machine/Ops.lean ====
section
/-! DEFINITION. Machine/Ops.lean: the named operations over the registers. Every meaning is written over these. -/

namespace Sys2Proof.Machine

/-- Write `MODE` (R16). -/
def State.withMode (s : State) (m : BitVec 3) : State := { s with mode := m }

/-- `RND <- n` (R18). -/
def State.withRnd (s : State) (n : BitVec 5) : State := { s with rnd := n }

/-- Write `KEY` (R11). -/
def State.withKey (s : State) (v : Block) : State := { s with key := v }

/-- Write `DIN` (R12). -/
def State.withDin (s : State) (v : Block) : State := { s with din := v }

/-- Write `DOUT` (R13). -/
def State.withDout (s : State) (v : Block) : State := { s with dout := v }

/-- Write the whole key-schedule file (R93). -/
def State.withKs (s : State) (ks : Vector KeySet 17) : State := { s with ks := ks }

/-- `KS[i] <- e` (R98, R99): every field of one entry. No index above 16 is ever formed (log 13). -/
def State.withKsEntry (s : State) (i : Nat) (e : KeySet) : State := { s with ks := s.ks.setIfInBounds i e }

/-- Write `L` and `R` together (R137, R138: neither write sees the other). -/
def State.withHalves (s : State) (a b : Half) : State := { s with l := a, r := b }

/-- Write `C` and `D` together (R98, R99). -/
def State.withKeyHalves (s : State) (a b : KeyHalf) : State := { s with c := a, d := b }

/-- Set what the host transaction answers: `some RDATA` for a read, nothing for a write (R51; log 6). -/
def State.withAnswer (s : State) (a : Option Block) : State := { s with rdata := a }

/-- Replace the coming turns (log 2). -/
def State.withTurns (s : State) (ts : List Turn) : State := { s with turns := ts }

/-- Count one free value taken (log 5). -/
def State.countDraw (s : State) : State := { s with draws := s.draws + 1 }

/-- `KS[i]`, for `i` in 0 to 16. The value at any other index is read by no rule (R31, R60; log 13). -/
def ksRead (ks : Vector KeySet 17) (i : Nat) : KeySet := ks[i]?.getD ⟨0, 0, 0⟩

/-- Completion: `MODE <- 3`, `RND <- 0` in the step that writes the last output (44_control_ops.md R165). -/
def State.finish (s : State) : State := (s.withRnd 0).withMode 3

/-- The core is refused for reason `r`: the mark is set, and of the registers and of what the host reads nothing is known
(60_exceptions.md R172; log 7). The turns to come are not the core's and stay. -/
def State.lose (s : State) (r : Refusal) : State where
  mode    := (Config.lost s.draws).mode
  rnd     := (Config.lost s.draws).rnd
  key     := (Config.lost s.draws).data.key
  din     := (Config.lost s.draws).data.din
  dout    := (Config.lost s.draws).data.dout
  ks      := (Config.lost s.draws).data.ks
  l       := (Config.lost s.draws).data.l
  r       := (Config.lost s.draws).data.r
  c       := (Config.lost s.draws).data.c
  d       := (Config.lost s.draws).data.d
  refusal := some r
  rdata   := (Config.lost s.draws).rdata
  turns   := s.turns
  draws   := s.draws + 1

/-- Reset, in any state, a refused one too (70_reset_and_hazards.md R190): idle, the refused mark cleared, and `data` in
every register R23 leaves unspecified. The turns still to come and the count of free values are not the core's: they stay
(log 18). -/
def takeReset (data : ResetData) (s : State) : State :=
  { State.resetWith data with turns := s.turns, draws := s.draws }

end Sys2Proof.Machine
end

