-- ==== Sys2Proof/Machine/Flags.lean ====
section
/-! DEFINITION. Machine/Flags.lean: the core has no status flags, condition codes or predicates (10_state.md R17). The one
status is `MODE`: idle or busy (R16), and what a busy core refuses (44_control_ops.md R164). -/

namespace Sys2Proof.Machine

/-- Idle: `MODE = 3` (R16). -/
def State.idle (s : State) : Bool := s.mode == 3

/-- The key-schedule file may be read: `MODE ≠ 4` (R164). -/
def State.ksReadable (s : State) : Bool := s.mode != 4

/-- A host write or command is performed on an idle core and refused `BusyWrite` on a busy one (R164). A write answers
nothing (R51). -/
def whenIdle (s : State) (t : State) : Out :=
  if s.idle then .next (t.withAnswer none) else .refused .busyWrite

/-- A read of a `KS` view answers the value of the entry unless `MODE = 4` (R164). The term's index is checked first, as
the decoder does (R175; log 16). -/
def answerKs (s : State) (i : BitVec 5) (view : KeySet → Block) : Out :=
  if i.toNat ≤ 16 then
    if s.ksReadable then .next (s.withAnswer (some (view (ksRead s.ks i.toNat)))) else .refused .busyScheduleRead
  else .refused .indexOutOfRange

/-- A register read answers the value, busy or idle (44_control_ops.md section 4). -/
def answer (s : State) (v : Block) : Out := .next (s.withAnswer (some v))

/-- A command is accepted on an idle core: `MODE <- c`, and `RND` "is 0 and stays 0" (R155). -/
def acceptCommand (s : State) (c : BitVec 3) : Out := whenIdle s (s.withMode c)

end Sys2Proof.Machine
end

