-- ==== Sys2Proof/Machine/Operands.lean ====
section
/-! DEFINITION. Machine/Operands.lean: how values are cut into fields and joined from them (30_encoding.md R56 to R61,
20_memory.md R33). -/

namespace Sys2Proof.Machine

/-- `X<1..32>`, the "first 4 bytes" of a block (R56). -/
def leftHalf (x : Block) : Half := x.extractLsb' 32 32

/-- `X<33..64>`, the "last 4 bytes" of a block (R56). -/
def rightHalf (x : Block) : Half := x.extractLsb' 0 32

/-- `a ‖ b` of two half-blocks (R56). -/
def joinHalves (a b : Half) : Block := a ++ b

/-- `K0<1..28>`, the "first 28 bits" (R57). -/
def leftKeyHalf (k0 : BitVec 56) : KeyHalf := k0.extractLsb' 28 28

/-- `K0<29..56>`, the "last 28 bits" (R57). -/
def rightKeyHalf (k0 : BitVec 56) : KeyHalf := k0.extractLsb' 0 28

/-- `C[i] ‖ D[i]` (R57). -/
def joinKeyHalves (c d : KeyHalf) : BitVec 56 := c ++ d

/-- Group `g`, 0 to 7, of the expanded half: `X[47-6g : 42-6g]` (R58). -/
def sboxGroup (x : Subkey) (g : Nat) : BitVec 6 := x.extractLsb' (42 - 6 * g) 6

/-- `row = x[5] ‖ x[0]` (R58). -/
def sboxRow (x : BitVec 6) : BitVec 2 := BitVec.ofBool (x.getLsbD 5) ++ BitVec.ofBool (x.getLsbD 0)

/-- `column = x[4:1]` (R58). -/
def sboxColumn (x : BitVec 6) : BitVec 4 := x.extractLsb' 1 4

/-- The eight S-box results joined, group 0 first (R59). -/
def joinNibbles (s : Nat → BitVec 4) : Half := s 0 ++ s 1 ++ s 2 ++ s 3 ++ s 4 ++ s 5 ++ s 6 ++ s 7

/-- The direction of a cipher operation; it selects only the order of the subkeys (00_scope.md section 6). -/
inductive Direction where
  | encrypt
  | decrypt
deriving DecidableEq, Repr

/-- The subkey index of round `k`: `k` for Encrypt, `17 - k` for Decrypt (R60). -/
def subkeyIndex (dir : Direction) (k : Nat) : Nat :=
  match dir with
  | .encrypt => k
  | .decrypt => 17 - k

/-- The 4-byte image of a 28-bit key half: left-aligned, the four padding bits zero (R33). -/
def halfImage (x : KeyHalf) : BitVec 32 := x ++ (0 : BitVec 4)

/-- The 6-byte image of a subkey is its value (R33). -/
def subkeyImage (k : Subkey) : BitVec 48 := k

/-- `zext_64` of read data (R61). -/
def zext64 {n : Nat} (v : BitVec n) : Block := v.setWidth 64

end Sys2Proof.Machine
end

