-- ==== Sys2Proof/Machine/Perm.lean ====
section
/-! DEFINITION. Machine/Perm.lean: DES positions, byte buffers and the bit permutation primitive (00_scope.md R4 to R6,
40_bitperm.md R70, R71, R81). -/

namespace Sys2Proof.Machine

/-- `V<p>`: the bit at DES position `p`, counted from 1 at the most significant end (R4). -/
def desBit {w : Nat} (v : BitVec w) (p : Nat) : Bool := v.getMsbD (p - 1)

/-- `TableRead(T, i)`: entry `i` of a table, counted from 0. No index outside the table is ever formed (R31, log 13). -/
def tableRead (T : List Nat) (i : Nat) : Nat := T.getD i 0

/-- A table is valid for input width `w` when every entry is a position of it (R71). -/
def tableValid (w : Nat) (T : List Nat) : Bool := T.all fun t => decide (1 ≤ t ∧ t ≤ w)

/-- The bits `PERM` selects, first output position first: `O<i+1> = V<T[i]>` (R70). -/
def permBits {w : Nat} (T : List Nat) (v : BitVec w) : List Bool := T.map (desBit v)

/-- `PERM(T, V, w)` for a table of `m` entries: `O<i+1> <- V<T[i]>` for every `i` (R70). -/
def perm {w : Nat} (m : Nat) (T : List Nat) (v : BitVec w) : BitVec m :=
  (BitVec.ofBoolListBE (permBits T v)).setWidth m

/-- The byte buffer of a value of `8n` bits: byte `j` is `V[8n-8j-1 : 8n-8j-8]` (R6). -/
def toBytes {w : Nat} (v : BitVec w) : List Byte :=
  (List.range (w / 8)).map fun j => v.extractLsb' (w - 8 * j - 8) 8

/-- One turn of the loop of R81: bit `T[i]-1` of the input buffer is put at bit `i` of the output buffer. -/
def permByteStep (T : List Nat) (inp : List Byte) (out : List Byte) (i : Nat) : List Byte :=
  let s := tableRead T i - 1
  let bit : Byte := (inp.getD (s / 8) 0 >>> (7 - s % 8)) &&& 1
  out.set (i / 8) (out.getD (i / 8) 0 ||| (bit <<< (7 - i % 8)))

/-- `PERM` on byte buffers, the output buffer zero at first (R81). -/
def permBytes (T : List Nat) (inp : List Byte) : List Byte :=
  (List.range T.length).foldl (permByteStep T inp) (List.replicate ((T.length + 7) / 8) 0)

end Sys2Proof.Machine
end

