-- ==== Sys2Proof/Machine/RoundFn.lean ====
section
/-! DEFINITION. Machine/RoundFn.lean: the round function `F` and the S-box lookup (42_roundfn.md R110, R111). -/

namespace Sys2Proof.Machine

/-- The table index of a 6-bit group, `row * 16 + column` (R58, R111). -/
def sboxIndex (x : BitVec 6) : Nat := (sboxRow x).toNat * 16 + (sboxColumn x).toNat

/-- `SBOX(g, x)` (R111). -/
def sbox (g : Nat) (x : BitVec 6) : BitVec 4 := BitVec.ofNat 4 (tableRead (tableS g) (sboxIndex x))

/-- The substitution stage: eight lookups, one per group, joined (R110 step 3, R59). -/
def substitute (x : Subkey) : Half := joinNibbles fun g => sbox g (sboxGroup x g)

/-- `F(r, k)`: expansion, key mixing, substitution, permutation `P` (R110). -/
def roundF (r : Half) (k : Subkey) : Half :=
  let er : Subkey := perm 48 tableE r
  let x := er ^^^ k
  perm 32 tableP (substitute x)

end Sys2Proof.Machine
end

