-- ==== Sys2Proof/Machine/KeySched.lean ====
section
/-! DEFINITION. Machine/KeySched.lean: the key scheduler: rotation, the function from a key to 17 KeySets, the command
KEYSCHED and the block steps of its operation (41_keysched.md). -/

namespace Sys2Proof.Machine

/-- `ROTL28(x, n) = ((x << n) | (x >> (28 - n))) & 0xFFFFFFF` (R90). -/
def rotl28 (x : KeyHalf) (n : Nat) : KeyHalf := (x <<< n) ||| (x >>> (28 - n))

/-- `SHIFT[i]` (R91). -/
def shiftAt (i : Nat) : Nat := tableRead tableShift i

/-- `PERM(PC1, key, 64)`, the value `K0` (R92). -/
def pc1 (key : Block) : BitVec 56 := perm 56 tablePC1 key

/-- `(C[i], D[i])` of a key: the halves of `K0`, rotated by `SHIFT[1]` to `SHIFT[i]` (R92). -/
def keyHalves (key : Block) : Nat → KeyHalf × KeyHalf
  | 0 => (leftKeyHalf (pc1 key), rightKeyHalf (pc1 key))
  | i + 1 => (rotl28 (keyHalves key i).1 (shiftAt (i + 1)), rotl28 (keyHalves key i).2 (shiftAt (i + 1)))

/-- `PERM(PC2, c ‖ d, 56)`, the subkey of two key halves (R92). -/
def subkeyOf (c d : KeyHalf) : Subkey := perm 48 tablePC2 (joinKeyHalves c d)

/-- Entry `i` of a schedule from its key halves: `k` is zero at index 0 and PC-2 of the halves above (R92, R97). -/
def keySetOf (i : Nat) (c d : KeyHalf) : KeySet :=
  match i with
  | 0 => ⟨0, c, d⟩
  | _ + 1 => ⟨subkeyOf c d, c, d⟩

/-- Entry `i` of `KEYSCHED_FN(key)` (R92). -/
def keySetAt (key : Block) (i : Nat) : KeySet := keySetOf i (keyHalves key i).1 (keyHalves key i).2

/-- `KEYSCHED_FN(key)`: the 17 KeySets of a main key (R92). -/
def keyschedFn (key : Block) : Vector KeySet 17 :=
  ⟨((List.range 17).map (keySetAt key)).toArray, by simp⟩

/-- `KEYSCHED`, command code 4, as the host issues it: accepted when idle (R155). Its operation is `keyschedStep`. -/
def execKeysched (s : State) : Out := acceptCommand s 4

/-- The KS-Init step (R98). -/
def ksInit (s : State) : State :=
  let c0 := leftKeyHalf (pc1 s.key)
  let d0 := rightKeyHalf (pc1 s.key)
  ((s.withKeyHalves c0 d0).withKsEntry 0 (keySetOf 0 c0 d0)).withRnd 1

/-- The writes of the KS-Round step with `RND = i`, but for what it does to `RND` and `MODE` (R99). -/
def ksRoundWrites (s : State) (i : Nat) : State :=
  let c' := rotl28 s.c (shiftAt i)
  let d' := rotl28 s.d (shiftAt i)
  (s.withKeyHalves c' d').withKsEntry i (keySetOf i c' d')

/-- The KS-Round step (R99): the sixteenth completes the operation. -/
def ksRound (s : State) : State :=
  if s.rnd.toNat < 16 then (ksRoundWrites s s.rnd.toNat).withRnd (s.rnd + 1)
  else (ksRoundWrites s s.rnd.toNat).finish

/-- The block step of KEYSCHED, enabled when `MODE = 4`: the step the table of R18 names. -/
def keyschedStep (s : State) : Out :=
  if s.rnd = 0 then .next (ksInit s)
  else if s.rnd.toNat ≤ 16 then .next (ksRound s)
  else .fault .unreachableSequencer

/-- The whole operation in one indivisible step, the architectural form (R93). -/
def keyschedAtomic (s : State) : State := (s.withKs (keyschedFn s.key)).withMode 3

end Sys2Proof.Machine
end

