-- ==== Sys2Proof/Machine/Cipher.lean ====
section
/-! DEFINITION. Machine/Cipher.lean: the Feistel engine: the function `PROCESS`, the commands ENC and DEC and the block
steps of their operations (43_blockcipher.md). -/

namespace Sys2Proof.Machine

/-- `PERM(IP, b, 64)` (R130 step 1). -/
def initialPerm (b : Block) : Block := perm 64 tableIP b

/-- `PERM(FP, b, 64)` (R130 step 3). -/
def finalPerm (b : Block) : Block := perm 64 tableFP b

/-- One round: the new left half is the old right, the new right is `l ^ F(r, k)`; both use the old values (R130). -/
def feistelRound (k : Subkey) (lr : Half × Half) : Half × Half := (lr.2, lr.1 ^^^ roundF lr.2 k)

/-- `(L[k], R[k])`: the halves after round `k` (R130). -/
def feistelState (b : Block) (ks : Vector KeySet 17) (dir : Direction) : Nat → Half × Half
  | 0 => (leftHalf (initialPerm b), rightHalf (initialPerm b))
  | k + 1 => feistelRound (ksRead ks (subkeyIndex dir (k + 1))).k (feistelState b ks dir k)

/-- The pre-output, right half first, through FP (R130 step 3, R134). -/
def cipherOutput (lr : Half × Half) : Block := finalPerm (joinHalves lr.2 lr.1)

/-- `PROCESS(b, ks, dir)` (R130). -/
def process (b : Block) (ks : Vector KeySet 17) (dir : Direction) : Block := cipherOutput (feistelState b ks dir 16)

/-- `ENC`, command code 1, as the host issues it: accepted when idle (R155). Its operation is `encStep`. -/
def execEnc (s : State) : Out := acceptCommand s 1

/-- `DEC`, command code 0, as the host issues it: accepted when idle (R155). Its operation is `decStep`. -/
def execDec (s : State) : Out := acceptCommand s 0

/-- The Init step (R137). -/
def cipherInit (s : State) : State :=
  let x := initialPerm s.din
  (s.withHalves (leftHalf x) (rightHalf x)).withRnd 1

/-- The Round step (R138). -/
def cipherRound (dir : Direction) (s : State) : State :=
  let lr := feistelRound (ksRead s.ks (subkeyIndex dir s.rnd.toNat)).k (s.l, s.r)
  (s.withHalves lr.1 lr.2).withRnd (s.rnd + 1)

/-- The Final step (R139). -/
def cipherFinal (s : State) : State := (s.withDout (cipherOutput (s.l, s.r))).finish

/-- The step the table of R18 names for a cipher operation. -/
def cipherStep (dir : Direction) (s : State) : Out :=
  if s.rnd = 0 then .next (cipherInit s)
  else if s.rnd.toNat ≤ 16 then .next (cipherRound dir s)
  else if s.rnd = 17 then .next (cipherFinal s)
  else .fault .unreachableSequencer

/-- The block step of ENC, enabled when `MODE = 1` (R137 to R139). -/
def encStep (s : State) : Out := cipherStep .encrypt s

/-- The block step of DEC, enabled when `MODE = 0` (R137 to R139). -/
def decStep (s : State) : Out := cipherStep .decrypt s

/-- The whole ENC operation in one indivisible step, the architectural form (R131). -/
def encAtomic (s : State) : State := (s.withDout (process s.din s.ks .encrypt)).withMode 3

/-- The whole DEC operation in one indivisible step, the architectural form (R132). -/
def decAtomic (s : State) : State := (s.withDout (process s.din s.ks .decrypt)).withMode 3

end Sys2Proof.Machine
end

