-- ==== Sys2Proof/Machine/Control.lean ====
section
/-! DEFINITION. Machine/Control.lean: the host transactions, the commands GENKEY and DONE, and the block step of GENKEY
(44_control_ops.md). -/

namespace Sys2Proof.Machine

/-- `RDDIN`: `RDATA <- DIN` (R156). -/
def execRddin (s : State) : Out := answer s s.din

/-- `RDDOUT`: `RDATA <- DOUT` (R157). -/
def execRddout (s : State) : Out := answer s s.dout

/-- `RDKEY`: `RDATA <- KEY` (R158). -/
def execRdkey (s : State) : Out := answer s s.key

/-- `RDMODE`: `RDATA <- zext_64(MODE)` (R162). -/
def execRdmode (s : State) : Out := answer s (zext64 s.mode)

/-- `RDKSK i`: `RDATA <- zext_64(KS[i].k)` (R159). -/
def execRdksk (i : BitVec 5) (s : State) : Out := answerKs s i fun e => zext64 (subkeyImage e.k)

/-- `RDKSC i`: `RDATA <- zext_64(KS[i].c ‖ 0000)` (R160). -/
def execRdksc (i : BitVec 5) (s : State) : Out := answerKs s i fun e => zext64 (halfImage e.c)

/-- `RDKSD i`: `RDATA <- zext_64(KS[i].d ‖ 0000)` (R161). -/
def execRdksd (i : BitVec 5) (s : State) : Out := answerKs s i fun e => zext64 (halfImage e.d)

/-- `WRDIN v`: `DIN <- v` when idle (R154). -/
def execWrdin (v : Block) (s : State) : Out := whenIdle s (s.withDin v)

/-- `WRKEY v`: `KEY <- v` when idle, all 64 bits, parity positions included (R151). -/
def execWrkey (v : Block) (s : State) : Out := whenIdle s (s.withKey v)

/-- `DONE`, command code 3: accepted when idle and changes nothing (R153). -/
def execDone (s : State) : Out := whenIdle s s

/-- `GENKEY`, command code 2, as the host issues it: accepted when idle (R155). Its operation is `genkeyStep`. -/
def execGenkey (s : State) : Out := acceptCommand s 2

/-- The effect of the GENKEY operation, one step in both forms: `KEY` takes a draw nothing is known of (R152; log 5). -/
def genkeyEffect (s : State) : State := ((s.withKey (Config.entropy s.draws)).countDraw).withMode 3

/-- The block step of GENKEY, enabled when `MODE = 2` (R152). -/
def genkeyStep (s : State) : Out :=
  if s.rnd = 0 then .next (genkeyEffect s) else .fault .unreachableSequencer

end Sys2Proof.Machine
end

