-- ==== Sys2Proof/Machine/Block.lean ====
section
/-! DEFINITION. Machine/Block.lean: the step of the block agent (44_control_ops.md R150, 10_state.md R18), in the stepwise
form the machine runs and in the atomic form it refines. -/

namespace Sys2Proof.Machine

/-- The step of the block agent, by the table of R18. When `MODE = 3` it has none and nothing happens (log 3). The codes
5, 6, 7 are never held (R16; log 8). -/
def blockStep (s : State) : Out :=
  match s.mode.toNat with
  | 0 => decStep s
  | 1 => encStep s
  | 2 => genkeyStep s
  | 3 => .next s
  | 4 => keyschedStep s
  | _ => .fault .unreachableSequencer

/-- The block step at the architectural level: the whole operation `MODE` names, at once (R37, R150). -/
def blockAtomic (s : State) : Out :=
  match s.mode.toNat with
  | 0 => .next (decAtomic s)
  | 1 => .next (encAtomic s)
  | 2 => .next (genkeyEffect s)
  | 3 => .next s
  | 4 => .next (keyschedAtomic s)
  | _ => .fault .unreachableSequencer

/-- `n` block steps, one after the other (R140, R100: "Eighteen steps", "Seventeen steps"), whatever turns are to come. -/
def blockRun : Nat → State → Out
  | 0, s => .next s
  | n + 1, s =>
    match blockStep s with
    | .next t => blockRun n t
    | .fault f => .fault f
    | .refused r => .refused r

end Sys2Proof.Machine
end

