-- ==== Sys2Proof/Machine/Dispatch.lean ====
section
/-! DEFINITION. Machine/Dispatch.lean: the meaning of each row of the opcode table, as the host issues it. -/

namespace Sys2Proof.Machine

def exec (i : Instr) (s : State) : Host.Outcome State Fault Refusal :=
  match i with
  | .rddin => Sys2Proof.Machine.execRddin s
  | .rddout => Sys2Proof.Machine.execRddout s
  | .rdkey => Sys2Proof.Machine.execRdkey s
  | .rdmode => Sys2Proof.Machine.execRdmode s
  | .rdksk idx => Sys2Proof.Machine.execRdksk idx s
  | .rdksc idx => Sys2Proof.Machine.execRdksc idx s
  | .rdksd idx => Sys2Proof.Machine.execRdksd idx s
  | .wrdin v => Sys2Proof.Machine.execWrdin v s
  | .wrkey v => Sys2Proof.Machine.execWrkey v s
  | .dec => Sys2Proof.Machine.execDec s
  | .enc => Sys2Proof.Machine.execEnc s
  | .genkey => Sys2Proof.Machine.execGenkey s
  | .done => Sys2Proof.Machine.execDone s
  | .keysched => Sys2Proof.Machine.execKeysched s

end Sys2Proof.Machine
end

