-- ==== Sys2Proof/Machine/Port.lean ====
section
/-! DEFINITION. Machine/Port.lean: the three kinds of step of 44_control_ops.md R150: a host step, a block step, a reset. -/

namespace Sys2Proof.Machine

/-- The refusal of a word that decodes to no transaction (R54, R172). -/
def refusalOfWord : WordRefusal → Refusal
  | .reservedSelect => .reservedSelect
  | .readOnlyWrite => .readOnlyWrite
  | .nonZeroReserved => .nonZeroReserved
  | .indexOutOfRange => .indexOutOfRange
  | .reservedCommand => .reservedCommand

/-- A host step: the word is decoded, then performed or refused (R150.1). -/
def hostStep (w : HWord) (s : State) : Out :=
  match decode w with
  | .ok i => exec i s
  | .error r => .refused (refusalOfWord r)

/-- A refused transaction sets the refused mark (R172; log 7). -/
def markRefusal (s : State) (o : Out) : Out :=
  match o with
  | .next t => .next t
  | .fault f => .fault f
  | .refused r => .next (s.lose r)

/-- The step a turn names (R150). -/
def takeTurn (t : Turn) (s : State) : Out :=
  match t with
  | .host w => markRefusal s (hostStep w s)
  | .block => blockStep s
  | .reset data => .next (takeReset data s)

/-- The step of a core refused for `r`: nothing is known of what the host's or the block agent's turn does, the mark stays;
reset re-establishes a specified state (R172, R178, R190). -/
def takeTurnRefused (r : Refusal) (t : Turn) (s : State) : Out :=
  match t with
  | .host _ => .next (s.lose r)
  | .block => .next (s.lose r)
  | .reset data => .next (takeReset data s)

/-- The first coming turn is taken. With none to come the host is silent and the block agent moves if it is enabled
(R200; log 3). No rule but reset's is applied to a refused core. -/
def nextTurn (s : State) : Out :=
  match s.refusal with
  | none =>
    match s.turns with
    | [] => blockStep s
    | t :: rest => takeTurn t (s.withTurns rest)
  | some r =>
    match s.turns with
    | [] => .next (s.lose r)
    | t :: rest => takeTurnRefused r t (s.withTurns rest)

/-- The host issues word `w` next: the turn is put before those already to come (log 14). -/
def issueNext (s : State) (w : HWord) : State := s.withTurns (.host w :: s.turns)

end Sys2Proof.Machine
end

