-- ==== Sys2Proof/Machine/Step.lean ====
section
/-! DEFINITION. Machine/Step.lean: one step of the machine. -/

namespace Sys2Proof.Machine

/-- One step: one turn of one agent (44_control_ops.md R150, 20_memory.md R41). -/
def step (s : State) : Host.Outcome State Fault Refusal := nextTurn s

/-- The host issues, as the next turn, the H word whose bits are `w` (log 14, log 15). -/
def State.withFetchWord (s : State) (nbits w : Nat) : State := issueNext s (hwordOfTable nbits w)

end Sys2Proof.Machine
end

