-- ==== Sys2Proof/Safety.lean ====
section
/-! DEFINITION. Safety.lean: what counts as a good state, in the terms the claims use: the legal sequencer pairs, the
invariant that ties a half-done operation to its function, what the host can see, and the states a run can reach. -/

namespace Sys2Proof.Machine

/-- A cipher operation is requested or running: `MODE` is 0 or 1 (R16). -/
def State.cipherBusy (s : State) : Prop := s.mode = 0 ∨ s.mode = 1

/-- The direction of a cipher operation: `MODE[0]` (30_encoding.md R60). -/
def State.direction (s : State) : Direction := if s.mode = 1 then .encrypt else .decrypt

/-- The pairs `(MODE, RND)` of the table of 10_state.md R18; "Every other pair is unreachable". -/
def State.legalPair (s : State) : Prop :=
  (s.mode = 3 ∧ s.rnd = 0) ∨ (s.cipherBusy ∧ s.rnd.toNat ≤ 17) ∨ (s.mode = 4 ∧ s.rnd.toNat ≤ 16) ∨
  (s.mode = 2 ∧ s.rnd = 0)

/-- What holds of a core that is not refused: a legal pair, and the working registers of a half-done operation hold what
its function gives after the steps taken so far. -/
structure Sound (s : State) : Prop where
  /-- The sequencer is in a state of R18. -/
  legal : s.legalPair
  /-- After the Init step `(L, R) = (L[0], R[0])`, after the Round step with `RND = k` it is `(L[k], R[k])` (R140). -/
  cipher : s.cipherBusy → s.rnd ≠ 0 → (s.l, s.r) = feistelState s.din s.ks s.direction (s.rnd.toNat - 1)
  /-- `C` and `D` hold the key halves of the entry written last (R98, R99). -/
  halves : s.mode = 4 → s.rnd ≠ 0 → (s.c, s.d) = keyHalves s.key (s.rnd.toNat - 1)
  /-- The entries below `RND` are written (R98, R99). -/
  entries : s.mode = 4 → ∀ j, j < s.rnd.toNat → ksRead s.ks j = keySetAt s.key j

/-- The invariant of every reachable state. Of a refused core the spec says nothing (60_exceptions.md R172: every claim
"takes 'not refused' as a premise"). -/
def Inv (s : State) : Prop := s.refusal = none → Sound s

/-- The step is a refusal for reason `r`: it sets the refused mark (R172). -/
def State.refusedFor (s : State) (r : Refusal) : Prop := ∃ t, step s = .next t ∧ t.refusal = some r

/-- Unless KEYSCHED is writing it, `KS` is the schedule of some key (92_eei_decisions.md D7: an invariant that "can only be
broken by reset"). -/
def KsDerived (s : State) : Prop := s.mode ≠ 4 → ∃ key, s.ks = keyschedFn key

/-- The states a run can be in: a first reset with any data and any turns to come, then steps: of the host, of the block
agent, refusals, and resets, which end a refusal too (60_exceptions.md R178). -/
inductive Reachable : State → Prop where
  | reset (data : ResetData) (turns : List Turn) (draws : Nat) :
      Reachable { State.resetWith data with turns := turns, draws := draws }
  | step {s t : State} : Reachable s → Machine.step s = .next t → Reachable t

/-- What no host transaction shows is wiped: `L`, `R`, `C`, `D` (R19, R20). -/
def State.hostView (s : State) : State := { s with l := 0, r := 0, c := 0, d := 0 }

/-- The turn is a reset. -/
def Turn.isReset : Turn → Bool
  | .host _ => false
  | .block => false
  | .reset _ => true

/-- The turn is the block agent's. -/
def Turn.isBlock : Turn → Bool
  | .host _ => false
  | .block => true
  | .reset _ => false

/-- The next step is no reset. -/
def State.noReset (s : State) : Prop := ∀ data rest, s.turns ≠ .reset data :: rest

/-- The next step is the block agent's: its turn, or no turn to come. -/
def State.blockNext (s : State) : Prop := s.turns = [] ∨ ∃ rest, s.turns = .block :: rest

/-- `n` steps of the machine. -/
def run (n : Nat) (s : State) : Out := Host.Core.run Sys2Proof.core n s

end Sys2Proof.Machine

namespace Sys2Proof

/-- The reads of the table: the seven rows with `WE = 0`. -/
def Instr.isRead : Instr → Bool
  | .rddin => true
  | .rddout => true
  | .rdkey => true
  | .rdmode => true
  | .rdksk _ => true
  | .rdksc _ => true
  | .rdksd _ => true
  | .wrdin _ => false
  | .wrkey _ => false
  | .dec => false
  | .enc => false
  | .genkey => false
  | .done => false
  | .keysched => false

/-- The reads of the key-schedule file. -/
def Instr.isKsRead : Instr → Bool
  | .rddin => false
  | .rddout => false
  | .rdkey => false
  | .rdmode => false
  | .rdksk _ => true
  | .rdksc _ => true
  | .rdksd _ => true
  | .wrdin _ => false
  | .wrkey _ => false
  | .dec => false
  | .enc => false
  | .genkey => false
  | .done => false
  | .keysched => false

/-- The commands that start an operation: every code but 3 (R155). -/
def Instr.startsOperation : Instr → Bool
  | .rddin => false
  | .rddout => false
  | .rdkey => false
  | .rdmode => false
  | .rdksk _ => false
  | .rdksc _ => false
  | .rdksd _ => false
  | .wrdin _ => false
  | .wrkey _ => false
  | .dec => true
  | .enc => true
  | .genkey => true
  | .done => false
  | .keysched => true

end Sys2Proof
end

