-- ==== Sys2Proof/Certificates/Slice0/Obligations.lean ====
section
/-! DEFINITION. Certificates/Slice0/Obligations.lean: the statements about the model, from the numbered rules of spec/. -/

open Sys2Proof Sys2Proof.Machine

/-! ### Encoding -/

/-- Decoding the H word of a well-formed instruction gives it back (R51 to R53). -/
def Obligations.DecodeInvertsEncode : Prop :=
  ∀ i : Instr, i.wf = true → decode (encode i) = .ok i

/-- A word that decodes is the H word of the instruction it decodes to, which is well-formed: one word, one meaning
(R53). -/
def Obligations.EncodeInvertsDecode : Prop :=
  ∀ (w : HWord) (i : Instr), decode w = .ok i → i.wf = true ∧ encode i = w

/-- The table of R53, row by row: which words each transaction has. A word in no row is refused. -/
def Obligations.DecodingFollowsTheTable : Prop :=
  ∀ w : HWord,
    (decode w = .ok .rddin ↔ w.digit = 0x0 ∧ w.data = 0) ∧
    (decode w = .ok .rddout ↔ w.digit = 0x1 ∧ w.data = 0) ∧
    (decode w = .ok .rdkey ↔ w.digit = 0x2 ∧ w.data = 0) ∧
    (decode w = .ok .rdmode ↔ w.digit = 0x3 ∧ w.data = 0) ∧
    (∀ i, decode w = .ok (.rdksk i) ↔ w.digit = 0x5 ∧ w.data >>> 5 = 0 ∧ i = w.data.setWidth 5 ∧ i.toNat ≤ 16) ∧
    (∀ i, decode w = .ok (.rdksc i) ↔ w.digit = 0x6 ∧ w.data >>> 5 = 0 ∧ i = w.data.setWidth 5 ∧ i.toNat ≤ 16) ∧
    (∀ i, decode w = .ok (.rdksd i) ↔ w.digit = 0x7 ∧ w.data >>> 5 = 0 ∧ i = w.data.setWidth 5 ∧ i.toNat ≤ 16) ∧
    (∀ v, decode w = .ok (.wrdin v) ↔ w.digit = 0x8 ∧ v = w.data) ∧
    (∀ v, decode w = .ok (.wrkey v) ↔ w.digit = 0xA ∧ v = w.data) ∧
    (decode w = .ok .dec ↔ w.digit = 0xB ∧ w.data = 0) ∧
    (decode w = .ok .enc ↔ w.digit = 0xB ∧ w.data = 1) ∧
    (decode w = .ok .genkey ↔ w.digit = 0xB ∧ w.data = 2) ∧
    (decode w = .ok .done ↔ w.digit = 0xB ∧ w.data = 3) ∧
    (decode w = .ok .keysched ↔ w.digit = 0xB ∧ w.data = 4) ∧
    ((∃ i, decode w = .ok i) ∨ ∃ e, decode w = .error e)

/-- R54: the refused words, exactly, and that a host who issues one is refused in every state: the refused mark is set,
and no reading of the word as a no-operation is left. -/
def Obligations.RefusedWordsExactly : Prop :=
  ∀ w : HWord,
    ((∃ e, decode w = .error e) ↔
      (w.digit ∈ [0x4, 0x9, 0xC, 0xD, 0xE, 0xF] ∨
       (w.digit.toNat ≤ 3 ∧ w.data ≠ 0) ∨
       (5 ≤ w.digit.toNat ∧ w.digit.toNat ≤ 7 ∧ (w.data >>> 5 ≠ 0 ∨ 17 ≤ (w.data.setWidth 5).toNat)) ∨
       (w.digit = 0xB ∧ (w.data >>> 3 ≠ 0 ∨ 5 ≤ (w.data.setWidth 3).toNat)))) ∧
    ((∃ e, decode w = .error e) → ∀ (s : State) (rest : List Turn), s.turns = .host w :: rest → s.refusal = none →
      ∃ r, s.refusedFor r)

/-- R172 and R175: the reason a host transaction is refused for, each exactly when its row of the table applies and no
reason before it does. The reason stands in the refused mark of the next state. -/
def Obligations.RefusalReasonsInOrder : Prop :=
  ∀ (s : State) (w : HWord) (rest : List Turn), s.turns = .host w :: rest → s.refusal = none →
    (s.refusedFor .reservedSelect ↔ w.digit = 0x4 ∨ w.digit = 0xC) ∧
    (s.refusedFor .readOnlyWrite ↔ w.digit ∈ [0x9, 0xD, 0xE, 0xF]) ∧
    (s.refusedFor .nonZeroReserved ↔
      (w.digit.toNat ≤ 3 ∧ w.data ≠ 0) ∨
      (5 ≤ w.digit.toNat ∧ w.digit.toNat ≤ 7 ∧ w.data >>> 5 ≠ 0) ∨ (w.digit = 0xB ∧ w.data >>> 3 ≠ 0)) ∧
    (s.refusedFor .indexOutOfRange ↔
      5 ≤ w.digit.toNat ∧ w.digit.toNat ≤ 7 ∧ w.data >>> 5 = 0 ∧ 17 ≤ (w.data.setWidth 5).toNat) ∧
    (s.refusedFor .reservedCommand ↔
      w.digit = 0xB ∧ w.data >>> 3 = 0 ∧ 5 ≤ (w.data.setWidth 3).toNat) ∧
    (s.refusedFor .busyWrite ↔
      s.mode ≠ 3 ∧ (w.digit = 0x8 ∨ w.digit = 0xA ∨ (w.digit = 0xB ∧ w.data.toNat ≤ 4))) ∧
    (s.refusedFor .busyScheduleRead ↔
      s.mode = 4 ∧ 5 ≤ w.digit.toNat ∧ w.digit.toNat ≤ 7 ∧ w.data.toNat ≤ 16)

/-- A word decodes to an instruction of a table row exactly as the row's mask and match select it, but for the index of a
`KS` read above 16 (30_encoding.md, opening paragraph). -/
def Obligations.OpcodeRowsSelectTheirWords : Prop :=
  ∀ (w : HWord) (j : Instr), j.wf = true →
    (w &&& j.row.mask = j.row.pattern ↔
      ((∃ i, decode w = .ok i ∧ i.row = j.row) ∨
       (decode w = .error .indexOutOfRange ∧ w.digit = (encode j).digit)))

/-- Words of 95_test_vectors.md section 7 decode as listed there: a sanity check on a few words. -/
def Obligations.ListedWordsDecode : Prop :=
  decode 0x00000000000000000 = .ok .rddin ∧
  decode 0x50000000000000010 = .ok (.rdksk 16) ∧
  decode 0x80123456789ABCDEF = .ok (.wrdin 0x0123456789ABCDEF) ∧
  decode 0xA133457799BBCDFF1 = .ok (.wrkey 0x133457799BBCDFF1) ∧
  decode 0xB0000000000000001 = .ok .enc ∧
  decode 0xB0000000000000004 = .ok .keysched

/-! ### A step -/

/-- When the host's turn is next and its word decodes, the step is `exec` of the instruction with that turn taken (R150);
where `exec` refuses, the step sets the refused mark with that reason (R172; log 7). -/
def Obligations.StepRunsDecodedInstruction : Prop :=
  ∀ (s : State) (w : HWord) (i : Instr) (rest : List Turn),
    s.turns = .host w :: rest → s.refusal = none → decode w = .ok i →
    (∀ t, exec i (s.withTurns rest) = .next t → step s = .next t) ∧
    (∀ r, exec i (s.withTurns rest) = .refused r → ∃ t, step s = .next t ∧ t.refusal = some r ∧ t.turns = rest) ∧
    ∀ f, exec i (s.withTurns rest) ≠ .fault f

/-- The other kinds of step (R150): the block agent's turn, a reset, and, by the model's choice (log 3), the block agent's
step when no turn is to come. An idle block agent has no step: nothing changes. -/
def Obligations.BlockAndResetTurns : Prop :=
  ∀ (s : State) (rest : List Turn) (data : ResetData),
    (s.refusal = none → s.turns = .block :: rest → step s = blockStep (s.withTurns rest)) ∧
    (s.turns = .reset data :: rest → step s = .next (takeReset data (s.withTurns rest))) ∧
    (s.refusal = none → s.turns = [] → step s = blockStep s) ∧
    (s.mode = 3 → blockStep s = .next s)

/-! ### Host transactions -/

/-- R61: what each read answers. A register read answers in every state, a `KS` read for every index 0 to 16 unless
`MODE = 4`; nothing but the answer changes. -/
def Obligations.ReadsAnswerReadData : Prop :=
  ∀ s : State,
    exec .rddin s = .next { s with rdata := some s.din } ∧
    exec .rddout s = .next { s with rdata := some s.dout } ∧
    exec .rdkey s = .next { s with rdata := some s.key } ∧
    exec .rdmode s = .next { s with rdata := some (s.mode.setWidth 64) } ∧
    ∀ (i : BitVec 5) (h : i.toNat ≤ 16), s.mode ≠ 4 →
      exec (.rdksk i) s = .next { s with rdata := some ((s.ks[i.toNat]'(by omega)).k.setWidth 64) } ∧
      exec (.rdksc i) s =
        .next { s with rdata := some (((s.ks[i.toNat]'(by omega)).c ++ (0 : BitVec 4)).setWidth 64) } ∧
      exec (.rdksd i) s =
        .next { s with rdata := some (((s.ks[i.toNat]'(by omega)).d ++ (0 : BitVec 4)).setWidth 64) }

/-- R38: a read changes nothing but the answer and answers the same again; a data write is idempotent; the second of two
commands that start an operation is refused. -/
def Obligations.ReadsHaveNoSideEffect : Prop :=
  ∀ (s t : State),
    (∀ i : Instr, i.isRead = true → exec i s = .next t →
      t.withAnswer s.rdata = s ∧ t.rdata.isSome = true ∧ exec i t = .next t) ∧
    (∀ v, exec (.wrkey v) s = .next t → exec (.wrkey v) t = .next t) ∧
    (∀ v, exec (.wrdin v) s = .next t → exec (.wrdin v) t = .next t) ∧
    (∀ i : Instr, i.startsOperation = true → exec i s = .next t → exec i t = .refused .busyWrite)

/-- R154: WRDIN stores the value on an idle core and changes no other register, is refused on a busy one, and its H word
is `8` then the value. -/
def Obligations.WriteDataInputWhenIdle : Prop :=
  ∀ (s : State) (v : Block),
    (s.mode = 3 → exec (.wrdin v) s = .next { s with din := v, rdata := none }) ∧
    (s.mode ≠ 3 → exec (.wrdin v) s = .refused .busyWrite) ∧
    encode (.wrdin v) = (0x8 : BitVec 4) ++ v

/-- R151: WRKEY stores all 64 bits on an idle core and changes no other register, is refused on a busy one; its H word is
`A` then the value; the value already held changes no register; a key that differs in parity positions only gives the same
schedule. -/
def Obligations.WriteKeyWhenIdle : Prop :=
  ∀ (s : State) (v : Block),
    (s.mode = 3 → exec (.wrkey v) s = .next { s with key := v, rdata := none }) ∧
    (s.mode ≠ 3 → exec (.wrkey v) s = .refused .busyWrite) ∧
    encode (.wrkey v) = (0xA : BitVec 4) ++ v ∧
    (s.mode = 3 → exec (.wrkey s.key) s = .next { s with rdata := none }) ∧
    ((v ^^^ s.key) &&& 0xFEFEFEFEFEFEFEFE = 0 → keyschedFn v = keyschedFn s.key)

/-- R155: a `MODE` write, test by test in the order of the rule: the reserved part, the code, busy, DONE, else the code is
written to `MODE`; `RND` stays as it is, and it is 0 on an idle core in every state of R18. -/
def Obligations.CommandIsTestedInOrder : Prop :=
  ∀ (s : State) (w : HWord) (rest : List Turn), s.turns = .host w :: rest → s.refusal = none → w.digit = 0xB →
    (if w.data >>> 3 ≠ 0 then s.refusedFor .nonZeroReserved
      else if 5 ≤ (w.data.setWidth 3).toNat then s.refusedFor .reservedCommand
      else if s.mode ≠ 3 then s.refusedFor .busyWrite
      else if w.data.setWidth 3 = 3 then step s = .next { s with turns := rest, rdata := none }
      else step s = .next { s with turns := rest, mode := w.data.setWidth 3, rdata := none }) ∧
    (s.legalPair → s.mode = 3 → s.rnd = 0)

/-- R153: DONE on an idle core changes no register and enables no block step; on a busy core it is refused and so cancels
nothing; its H word is `B0000000000000003`; its code is the one value a block step writes to `MODE`. -/
def Obligations.DoneChangesNothing : Prop :=
  ∀ s : State,
    (s.mode = 3 → exec .done s = .next { s with rdata := none } ∧
      blockStep { s with rdata := none } = .next { s with rdata := none }) ∧
    (s.mode ≠ 3 → exec .done s = .refused .busyWrite) ∧
    encode .done = 0xB0000000000000003 ∧
    (∀ t, blockStep s = .next t → t.mode = s.mode ∨ t.mode = 3)

/-- R164: what a busy core refuses, and that it performs every other read. -/
def Obligations.BusyCoreRefuses : Prop :=
  ∀ s : State,
    (s.mode ≠ 3 → ∀ (v : Block) (i : Instr), i ∈ [.wrkey v, .wrdin v, .dec, .enc, .genkey, .done, .keysched] →
      exec i s = .refused .busyWrite) ∧
    (s.mode = 4 → ∀ i : Instr, i.isKsRead = true → i.wf = true → exec i s = .refused .busyScheduleRead) ∧
    (∀ i : Instr, i.isRead = true → i.wf = true → (i.isKsRead = true → s.mode ≠ 4) → ∃ t, exec i s = .next t)

/-- The frame of every row of the table as the host issues it: no output register, schedule entry or working register
changes; `KEY` only by WRKEY, `DIN` only by WRDIN, `MODE` only by a command that starts an operation; a transaction that
answers no read leaves no answer. -/
def Obligations.HostTransactionFrame : Prop :=
  ∀ (i : Instr) (s t : State), exec i s = .next t →
    t.dout = s.dout ∧ t.ks = s.ks ∧ t.rnd = s.rnd ∧ t.l = s.l ∧ t.r = s.r ∧ t.c = s.c ∧ t.d = s.d ∧
    t.turns = s.turns ∧ t.draws = s.draws ∧ t.refusal = s.refusal ∧
    ((∀ v, i ≠ .wrkey v) → t.key = s.key) ∧
    ((∀ v, i ≠ .wrdin v) → t.din = s.din) ∧
    (i.startsOperation = false → t.mode = s.mode) ∧
    (i.isRead = false → t.rdata = none)

/-- An idle core performs every well-formed transaction (R164, R190). -/
def Obligations.IdleCorePerformsEveryTransaction : Prop :=
  ∀ (s : State) (i : Instr), s.mode = 3 → i.wf = true → ∃ t, exec i s = .next t

/-! ### The functions -/

/-- R70: bit `i+1` of `PERM(T, V, w)`, counted from the most significant end, is the bit of `V` the table names. -/
def Obligations.PermSelectsTableBits : Prop :=
  ∀ (w m : Nat) (T : List Nat) (v : BitVec w), T.length = m → tableValid w T = true →
    ∀ i, i < m → desBit (perm m T v) (i + 1) = desBit v (tableRead T i)

/-- R72: `PERM` is linear over exclusive or. -/
def Obligations.PermIsLinear : Prop :=
  ∀ (w m : Nat) (T : List Nat) (a b : BitVec w), T.length = m → tableValid w T = true →
    perm m T (a ^^^ b) = perm m T a ^^^ perm m T b

/-- R81: the loop over byte buffers computes the byte buffer of `PERM`. -/
def Obligations.PermOnBytesAgrees : Prop :=
  ∀ (n k : Nat) (T : List Nat) (v : BitVec (8 * n)), T.length = 8 * k → tableValid (8 * n) T = true →
    permBytes T (toBytes v) = toBytes (perm (8 * k) T v)

/-- R79: IP and FP undo each other, in both orders. -/
def Obligations.InitialAndFinalPermInverse : Prop :=
  ∀ v : Block, finalPerm (initialPerm v) = v ∧ initialPerm (finalPerm v) = v

/-- R90: `ROTL28` by DES positions, as two slices, on its corner values, and composed. -/
def Obligations.RotationIsCircular : Prop :=
  ∀ (x : KeyHalf) (n : Nat), n = 1 ∨ n = 2 →
    (∀ p, 1 ≤ p → p ≤ 28 → desBit (rotl28 x n) p = desBit x ((p - 1 + n) % 28 + 1)) ∧
    rotl28 0xFFFFFFF n = 0xFFFFFFF ∧ rotl28 0 n = 0 ∧
    rotl28 (rotl28 x 1) 1 = rotl28 x 2 ∧
    rotl28 x 1 = x.extractLsb' 0 27 ++ x.extractLsb' 27 1 ∧
    rotl28 x 2 = x.extractLsb' 0 26 ++ x.extractLsb' 26 2

/-- R92: the schedule of a key, by its recurrence over all seventeen entries. -/
def Obligations.ScheduleRecurrence : Prop :=
  ∀ key : Block,
    ksRead (keyschedFn key) 0 =
      ⟨0, (perm 56 tablePC1 key).extractLsb' 28 28, (perm 56 tablePC1 key).extractLsb' 0 28⟩ ∧
    ∀ i, i < 16 →
      let e := ksRead (keyschedFn key) i
      let c := rotl28 e.c (tableRead tableShift (i + 1))
      let d := rotl28 e.d (tableRead tableShift (i + 1))
      ksRead (keyschedFn key) (i + 1) = ⟨perm 48 tablePC2 (c ++ d), c, d⟩

/-- R96: `C[i]` and `D[i]` are `C[0]` and `D[0]` rotated by the running sum of the shifts, and after sixteen rounds they
are back where they started. -/
def Obligations.KeyHalvesComeBack : Prop :=
  ∀ key : Block,
    keyHalves key 16 = keyHalves key 0 ∧
    ∀ i, i ≤ 16 →
      (keyHalves key i).1 = (keyHalves key 0).1.rotateLeft (tableShift.take (i + 1)).sum ∧
      (keyHalves key i).2 = (keyHalves key 0).2.rotateLeft (tableShift.take (i + 1)).sum

/-- R94: keys that differ in the parity positions only have the same schedule, and there are at most 2^56 schedules. -/
def Obligations.ParityHasNoEffect : Prop :=
  (∀ key1 key2 : Block, (∀ p, 1 ≤ p → p ≤ 64 → p % 8 ≠ 0 → desBit key1 p = desBit key2 p) →
    keyschedFn key1 = keyschedFn key2) ∧
  (Set.range keyschedFn).Finite ∧ (Set.range keyschedFn).ncard ≤ 2 ^ 56

/-- R120: every value a lookup gives is 0 to 15, each printed row holds every value once, and for fixed outer bits the
lookup is a bijection from the inner bits to the output; so the whole substitution stage loses nothing but the outer bits,
the two in each group that the mask names. -/
def Obligations.SboxRowsArePermutations : Prop :=
  (∀ g, g < 8 →
    (∀ x : BitVec 6, tableRead (tableS g) (sboxIndex x) ≤ 15) ∧
    (∀ row, row < 4 → List.Perm (((tableS g).drop (16 * row)).take 16) (List.range 16)) ∧
    (∀ a b : Bool, Function.Bijective fun inner : BitVec 4 => sbox g (BitVec.ofBool a ++ inner ++ BitVec.ofBool b))) ∧
  ∀ x y : Subkey, (x ^^^ y) &&& 0x861861861861 = 0 → substitute x = substitute y → x = y

/-- R110, R111, R123: what `F` computes: `P` of the eight lookups joined, group `g` being bits `[47-6g : 42-6g]` of the
expanded half exclusive-or the subkey; which entry a group addresses: row the outer two bits, the first one high, column
the inner four, entry `16 * row + column`; worked examples of both rules; that `F` is not injective in the half; and that
it depends on its operands only through the exclusive or. -/
def Obligations.RoundFunctionSeesOnlyTheMix : Prop :=
  (∀ (r : Half) (k : Subkey),
    let x : Subkey := perm 48 tableE r ^^^ k
    roundF r k = perm 32 tableP (sbox 0 (x.extractLsb' 42 6) ++ sbox 1 (x.extractLsb' 36 6) ++
      sbox 2 (x.extractLsb' 30 6) ++ sbox 3 (x.extractLsb' 24 6) ++ sbox 4 (x.extractLsb' 18 6) ++
      sbox 5 (x.extractLsb' 12 6) ++ sbox 6 (x.extractLsb' 6 6) ++ sbox 7 (x.extractLsb' 0 6))) ∧
  (∀ (g : Nat) (x : BitVec 6), g < 8 →
    let bit := fun i => (x.getLsbD i).toNat
    let row := 2 * bit 5 + bit 0
    let column := 8 * bit 4 + 4 * bit 3 + 2 * bit 2 + bit 1
    (sbox g x).toNat = tableRead (tableS g) (16 * row + column)) ∧
  (sbox 0 0b000000 = 14 ∧ sbox 0 0b000001 = 0 ∧ sbox 0 0b100000 = 4 ∧ sbox 0 0b100001 = 15 ∧ sbox 0 0b111111 = 13 ∧
    sbox 0 0b011110 = 7 ∧ sbox 0 0b000010 = 4 ∧ sbox 0 0b011011 = 5) ∧
  (roundF 0 0 = 0xD8D8DBBC ∧ roundF 0xFFFFFFFF 0 = 0x38DBF9CB ∧ roundF 0 0xFFFFFFFFFFFF = 0x38DBF9CB ∧
    roundF 0xFFFFFFFF 0xFFFFFFFFFFFF = 0xD8D8DBBC ∧ roundF 0xF0AAF0AA 0x1B02EFFC7072 = 0x234AA9BB) ∧
  (∃ (r1 r2 : Half) (k : Subkey), r1 ≠ r2 ∧ roundF r1 k = roundF r2 k) ∧
  (∀ (r1 r2 : Half) (k1 k2 : Subkey), perm 48 tableE r1 ^^^ k1 = perm 48 tableE r2 ^^^ k2 → roundF r1 k1 = roundF r2 k2) ∧
  ∀ (r : Half) (k : Subkey), roundF r k = roundF 0 (perm 48 tableE r ^^^ k)

/-- R130 and R134: `PROCESS` by its recurrence: sixteen rounds alike, then `R16‖L16`, right half first, through FP. -/
def Obligations.ProcessRecurrence : Prop :=
  ∀ (b : Block) (ks : Vector KeySet 17) (dir : Direction),
    ∃ L R : Nat → Half,
      L 0 ++ R 0 = perm 64 tableIP b ∧
      (∀ k, k < 16 → L (k + 1) = R k ∧
        R (k + 1) = L k ^^^ roundF (R k) (ksRead ks (if dir = .encrypt then k + 1 else 17 - (k + 1))).k) ∧
      process b ks dir = perm 64 tableFP (R 16 ++ L 16)

/-- R133: decrypting under a schedule undoes encrypting under it, and the other way round, for every block and every
schedule, whether or not it comes from a key. -/
def Obligations.CipherRoundTrip : Prop :=
  ∀ (b : Block) (ks : Vector KeySet 17),
    process (process b ks .encrypt) ks .decrypt = b ∧ process (process b ks .decrypt) ks .encrypt = b

/-- R136: decrypting is encrypting under the reversed schedule; under a palindromic schedule the two coincide and each is
its own inverse; the schedule of key 0101010101010101 is such a one, all its subkeys being zero. -/
def Obligations.DirectionIsScheduleOrder : Prop :=
  (∀ (b : Block) (ks rev : Vector KeySet 17), (∀ i, 1 ≤ i → i ≤ 16 → (ksRead rev i).k = (ksRead ks (17 - i)).k) →
    process b ks .decrypt = process b rev .encrypt) ∧
  (∀ (b : Block) (ks : Vector KeySet 17), (∀ i, 1 ≤ i → i ≤ 16 → (ksRead ks i).k = (ksRead ks (17 - i)).k) →
    process b ks .encrypt = process b ks .decrypt ∧
    process (process b ks .encrypt) ks .encrypt = b ∧ process (process b ks .decrypt) ks .decrypt = b) ∧
  ∀ i, 1 ≤ i → i ≤ 16 → (ksRead (keyschedFn 0x0101010101010101) i).k = 0

/-- R33: DES position `p` of a key half is position `p` of its image, and the four padding bits are zero. -/
def Obligations.HalfImageIsLeftAligned : Prop :=
  ∀ x : KeyHalf,
    (∀ p, 1 ≤ p → p ≤ 28 → desBit (halfImage x) p = desBit x p) ∧
    (∀ p, 29 ≤ p → p ≤ 32 → desBit (halfImage x) p = false)

/-! ### The steps of an operation -/

/-- R137, R138, R139: the three steps of a cipher operation, as the rules print them. -/
def Obligations.CipherStepsAsPrinted : Prop :=
  ∀ s : State, s.mode = 0 ∨ s.mode = 1 →
    (s.rnd = 0 → blockStep s = .next { s with
      l := (perm 64 tableIP s.din).extractLsb' 32 32, r := (perm 64 tableIP s.din).extractLsb' 0 32, rnd := 1 }) ∧
    (1 ≤ s.rnd.toNat → s.rnd.toNat ≤ 16 → blockStep s = .next { s with
      l := s.r
      r := s.l ^^^ roundF s.r (ksRead s.ks (if s.mode = 1 then s.rnd.toNat else 17 - s.rnd.toNat)).k
      rnd := s.rnd + 1 }) ∧
    (s.rnd = 17 → blockStep s = .next { s with dout := perm 64 tableFP (s.r ++ s.l), rnd := 0, mode := 3 })

/-- R98, R99: the two steps of KEYSCHED, as the rules print them. -/
def Obligations.KeySchedStepsAsPrinted : Prop :=
  ∀ s : State, s.mode = 4 →
    (s.rnd = 0 →
      let c := (perm 56 tablePC1 s.key).extractLsb' 28 28
      let d := (perm 56 tablePC1 s.key).extractLsb' 0 28
      blockStep s = .next { s with c := c, d := d, ks := s.ks.set 0 ⟨0, c, d⟩, rnd := 1 }) ∧
    (1 ≤ s.rnd.toNat → ∀ h : s.rnd.toNat ≤ 16,
      let c := rotl28 s.c (tableRead tableShift s.rnd.toNat)
      let d := rotl28 s.d (tableRead tableShift s.rnd.toNat)
      let ks := s.ks.set s.rnd.toNat ⟨perm 48 tablePC2 (c ++ d), c, d⟩ (by omega)
      blockStep s = .next (if s.rnd.toNat < 16 then { s with c := c, d := d, ks := ks, rnd := s.rnd + 1 }
        else { s with c := c, d := d, ks := ks, rnd := 0, mode := 3 }))

/-- R152: GENKEY, issued to an idle core, and its one block step: `KEY` takes a draw, nothing else changes. The draw is
the free value of log 5, `Config.entropy`, of which nothing is known; the count of draws is the model's own. -/
def Obligations.GenkeyStoresADraw : Prop :=
  ∀ s : State, s.mode = 3 → s.rnd = 0 →
    ∃ t, exec .genkey s = .next t ∧ t = { s with mode := 2, rdata := none } ∧
      blockStep t = .next { s with key := Config.entropy s.draws, draws := s.draws + 1, rdata := none }

/-- R140: eighteen block steps take a pending cipher operation to its result; after `k` rounds `L`, `R` are `L[k]`,
`R[k]`, and the core is busy until the last. -/
def Obligations.CipherTakesEighteenSteps : Prop :=
  ∀ s : State, s.mode = 0 ∨ s.mode = 1 → s.rnd = 0 →
    let dir : Direction := if s.mode = 1 then .encrypt else .decrypt
    blockRun 18 s = .next { s with
      mode := 3, dout := process s.din s.ks dir
      l := (feistelState s.din s.ks dir 16).1, r := (feistelState s.din s.ks dir 16).2 } ∧
    ∀ k : Fin 17, blockRun (k.val + 1) s = .next { s with
      rnd := BitVec.ofNat 5 (k.val + 1)
      l := (feistelState s.din s.ks dir k.val).1, r := (feistelState s.din s.ks dir k.val).2 }

/-- R100: seventeen block steps take a pending KEYSCHED to its result, the one the one-step form of R93 gives but for `C`,
`D`; in between only `RND`, `KS`, `C`, `D` move, and the host transactions that could show `KS` or change `KEY` are
refused. -/
def Obligations.KeySchedTakesSeventeenSteps : Prop :=
  ∀ s : State, s.mode = 4 → s.rnd = 0 →
    blockRun 17 s = .next { s with
      mode := 3, ks := keyschedFn s.key, c := (keyHalves s.key 16).1, d := (keyHalves s.key 16).2 } ∧
    blockAtomic s = .next { s with mode := 3, ks := keyschedFn s.key } ∧
    ∀ k : Fin 17, ∃ t, blockRun k.val s = .next t ∧
      t = { s with rnd := BitVec.ofNat 5 k.val, ks := t.ks, c := t.c, d := t.d } ∧
      ∀ i : Instr, i.isKsRead = true ∨ i.isRead = false → ∃ r, exec i t = .refused r

/-- ENC (R131): issued to an idle core it is accepted, and its operation leaves `DOUT = PROCESS(DIN, KS, Encrypt)`, the
core idle again, `KEY`, `DIN`, `KS` unchanged. -/
def Obligations.EncCompletes : Prop :=
  ∀ s : State, s.mode = 3 → s.rnd = 0 →
    ∃ t, exec .enc s = .next t ∧ t = { s with mode := 1, rdata := none } ∧
      blockRun 18 t = .next { s with
        dout := process s.din s.ks .encrypt, rdata := none
        l := (feistelState s.din s.ks .encrypt 16).1, r := (feistelState s.din s.ks .encrypt 16).2 }

/-- DEC (R132): issued to an idle core it is accepted, and its operation leaves `DOUT = PROCESS(DIN, KS, Decrypt)`, the
core idle again, `KEY`, `DIN`, `KS` unchanged. -/
def Obligations.DecCompletes : Prop :=
  ∀ s : State, s.mode = 3 → s.rnd = 0 →
    ∃ t, exec .dec s = .next t ∧ t = { s with mode := 0, rdata := none } ∧
      blockRun 18 t = .next { s with
        dout := process s.din s.ks .decrypt, rdata := none
        l := (feistelState s.din s.ks .decrypt 16).1, r := (feistelState s.din s.ks .decrypt 16).2 }

/-- KEYSCHED (R93): issued to an idle core it is accepted, and its operation leaves `KS = KEYSCHED_FN(KEY)`, the core idle
again, `KEY`, `DIN`, `DOUT` unchanged. -/
def Obligations.KeySchedCompletes : Prop :=
  ∀ s : State, s.mode = 3 → s.rnd = 0 →
    ∃ t, exec .keysched s = .next t ∧ t = { s with mode := 4, rdata := none } ∧
      blockRun 17 t = .next { s with
        ks := keyschedFn s.key, rdata := none, c := (keyHalves s.key 16).1, d := (keyHalves s.key 16).2 }

/-- R37: what the stepwise machine leaves of a pending operation is what the one-step form leaves, but for `L`, `R`, `C`,
`D`, which no host transaction shows; and up to then nothing the host can read has changed, `KS` during KEYSCHED aside. -/
def Obligations.StepwiseRefinesAtomic : Prop :=
  ∀ s : State, s.mode.toNat ≤ 4 → s.rnd = 0 →
    ∃ n, n ≤ 18 ∧ ∃ t u, blockRun n s = .next t ∧ blockAtomic s = .next u ∧ t.hostView = u.hostView ∧
      ∀ m, m < n → ∃ v, blockRun m s = .next v ∧ v.mode = s.mode ∧ v.key = s.key ∧ v.din = s.din ∧ v.dout = s.dout ∧
        (s.mode ≠ 4 → v.ks = s.ks)

/-- R37, R41, R198: whatever words the host issues in between, if none is refused, a pending cipher operation keeps
every register the host can read as it was until the eighteenth turn of the block agent, and then `DOUT` is `PROCESS` of
the block and the schedule. -/
def Obligations.InterleavingCannotChangeCipher : Prop :=
  ∀ (s t : State) (ts : List Turn), s.mode = 0 ∨ s.mode = 1 → s.rnd = 0 →
    (∀ u ∈ ts, u.isReset = false) → ts.countP Turn.isBlock ≤ 17 →
    run ts.length (s.withTurns (ts ++ [.block])) = .next t → t.refusal = none →
      t.mode = s.mode ∧ t.rnd.toNat = ts.countP Turn.isBlock ∧
      t.key = s.key ∧ t.din = s.din ∧ t.dout = s.dout ∧ t.ks = s.ks ∧ t.draws = s.draws ∧
      (ts.countP Turn.isBlock = 17 → step t = .next { t with
        turns := [], mode := 3, rnd := 0
        dout := process s.din s.ks (if s.mode = 1 then .encrypt else .decrypt) })

/-- R37, R41: the same of a pending KEYSCHED, if no word is refused: `KEY`, `DIN`, `DOUT` stay, and its seventeenth turn
leaves the schedule of the key. -/
def Obligations.InterleavingCannotChangeKeySched : Prop :=
  ∀ (s t : State) (ts : List Turn), s.mode = 4 → s.rnd = 0 →
    (∀ u ∈ ts, u.isReset = false) → ts.countP Turn.isBlock ≤ 16 →
    run ts.length (s.withTurns (ts ++ [.block])) = .next t → t.refusal = none →
      t.mode = 4 ∧ t.rnd.toNat = ts.countP Turn.isBlock ∧
      t.key = s.key ∧ t.din = s.din ∧ t.dout = s.dout ∧ t.draws = s.draws ∧
      (ts.countP Turn.isBlock = 16 → ∃ u, step t = .next u ∧ u.mode = 3 ∧ u.rnd = 0 ∧ u.ks = keyschedFn s.key ∧
        u.key = s.key ∧ u.din = s.din ∧ u.dout = s.dout)

/-- R133, on the registers: encrypt the block in `DIN`, write the result to `DIN`, decrypt: `DOUT` is the first block,
under whatever schedule `KS` holds. -/
def Obligations.EncryptThenDecryptRestoresBlock : Prop :=
  ∀ s : State, s.mode = 3 → s.rnd = 0 →
    ∃ a b c e f, exec .enc s = .next a ∧ blockRun 18 a = .next b ∧ exec (.wrdin b.dout) b = .next c ∧
      exec .dec c = .next e ∧ blockRun 18 e = .next f ∧ f.mode = 3 ∧ f.dout = s.din ∧ f.key = s.key ∧ f.ks = s.ks

/-! ### Invariants and rules of the whole machine -/

/-- Every step keeps the invariant: unless the core is refused, the sequencer is in a state of R18 and a half-done
operation has computed what its function gives. -/
def Obligations.EveryStepKeepsInv : Prop :=
  ∀ s t : State, Inv s → step s = .next t → Inv t

/-- The invariant holds after a reset, whatever data it leaves and whatever turns are to come; `State.reset` is the one
whose data is `Config.resetData` (log 4). -/
def Obligations.ResetStateHasInv : Prop :=
  (∀ (data : ResetData) (turns : List Turn) (draws : Nat),
    Inv { State.resetWith data with turns := turns, draws := draws }) ∧ Inv State.reset

/-- No reachable state faults (R174), refused cores and resets along the way included. -/
def Obligations.ReachableStatesNeverFault : Prop :=
  ∀ s : State, Reachable s → Inv s ∧ ∀ f, step s ≠ .fault f

/-- In any state at all, the only fault is that of a pair outside R18 of a core that is not refused (log 8), never the
source's two error kinds. -/
def Obligations.OnlyUnreachablePairsFault : Prop :=
  ∀ (s : State) (f : Fault), step s = .fault f → f = .unreachableSequencer ∧ ¬ s.legalPair ∧ s.refusal = none

/-- R172, R178, R190: the refused mark is set by a host transaction only, for one of the seven reasons; no later step
but a reset clears it or changes its reason, and a reset clears it. The mark is how a step refuses (log 7): its outcome
is never `refused`. -/
def Obligations.OnlyTheHostIsRefused : Prop :=
  ∀ s : State,
    (∀ r, s.refusal = none → s.refusedFor r →
      (∃ w rest, s.turns = .host w :: rest) ∧
      r ∈ [.reservedSelect, .readOnlyWrite, .nonZeroReserved, .indexOutOfRange, .reservedCommand, .busyWrite,
        .busyScheduleRead]) ∧
    (∀ r, s.refusal = some r → s.noReset → ∃ t, step s = .next t ∧ t.refusal = some r ∧ t.turns = s.turns.tail) ∧
    (∀ data rest, s.turns = .reset data :: rest → ∃ t, step s = .next t ∧ t.refusal = none ∧ t.turns = rest) ∧
    ∀ r, step s ≠ .refused r

/-- R163, on a core that is not refused: `MODE` leaves 3 only by a command that starts an operation, and only a block
step or a reset brings it back; while busy it holds the code of that command. -/
def Obligations.OneOperationAtATime : Prop :=
  ∀ s t : State, step s = .next t → s.noReset → t.refusal = none →
    (s.mode = 3 → t.mode ≠ 3 → ∃ w rest i, s.turns = .host w :: rest ∧ decode w = .ok i ∧ i.startsOperation = true) ∧
    (s.mode ≠ 3 → t.mode = 3 → s.blockNext) ∧
    (s.mode ≠ 3 → t.mode = 3 ∨ t.mode = s.mode)

/-- R165: the step that completes an operation is the one that writes its last output, whatever host steps came before it.
What GENKEY writes is the free value of log 5, `Config.entropy`, of which nothing is known. -/
def Obligations.CompletionWritesTheOutput : Prop :=
  ∀ s t : State, Inv s → s.noReset → step s = .next t → t.refusal = none → s.mode ≠ 3 → t.mode = 3 →
    t.rnd = 0 ∧ t.din = s.din ∧
    (s.mode = 1 → t.dout = process s.din s.ks .encrypt ∧ t.key = s.key ∧ t.ks = s.ks) ∧
    (s.mode = 0 → t.dout = process s.din s.ks .decrypt ∧ t.key = s.key ∧ t.ks = s.ks) ∧
    (s.mode = 2 → t.key = Config.entropy s.draws ∧ t.dout = s.dout ∧ t.ks = s.ks) ∧
    (s.mode = 4 → t.ks = keyschedFn s.key ∧ t.key = s.key ∧ t.dout = s.dout)

/-- R11 to R14, R19, R20, R24: which step can change which register, over all steps but reset and refusal. -/
def Obligations.RegistersWrittenOnlyByTheirRules : Prop :=
  ∀ s t : State, step s = .next t → s.noReset → t.refusal = none →
    (t.key ≠ s.key → (∃ w rest v, s.turns = .host w :: rest ∧ decode w = .ok (.wrkey v) ∧ t.key = v ∧ s.mode = 3) ∨
      (s.blockNext ∧ s.mode = 2 ∧ t.mode = 3)) ∧
    (t.din ≠ s.din → ∃ w rest v, s.turns = .host w :: rest ∧ decode w = .ok (.wrdin v) ∧ t.din = v ∧ s.mode = 3) ∧
    (t.dout ≠ s.dout → s.blockNext ∧ s.cipherBusy ∧ s.rnd = 17 ∧ t.mode = 3) ∧
    (t.ks ≠ s.ks → s.blockNext ∧ s.mode = 4) ∧
    (t.l ≠ s.l ∨ t.r ≠ s.r → s.blockNext ∧ s.cipherBusy) ∧
    (t.c ≠ s.c ∨ t.d ≠ s.d → s.blockNext ∧ s.mode = 4) ∧
    (t.rnd ≠ s.rnd → s.blockNext ∧ s.mode ≠ 3) ∧
    (t.draws ≠ s.draws → s.blockNext ∧ s.mode = 2)

/-- R15 and D7: once `KS` is the schedule of a key, every step but a reset or a refusal keeps it the schedule of a key,
KEYSCHED's own half-done writes aside; a completed KEYSCHED leaves the schedule of `KEY`. -/
def Obligations.ScheduleStaysDerived : Prop :=
  ∀ s t : State, Inv s → s.noReset → step s = .next t → t.refusal = none →
    (KsDerived s → KsDerived t) ∧ (s.mode = 4 → t.mode = 3 → KsDerived t ∧ t.ks = keyschedFn t.key)

/-- R200: a busy core is idle again after at most eighteen block steps, wherever in its operation it is. -/
def Obligations.BusyCoreCompletes : Prop :=
  ∀ s : State, Inv s → s.refusal = none → ∃ n, n ≤ 18 ∧ ∃ t, blockRun n s = .next t ∧ t.mode = 3

/-- R202: the steps taken depend on no data: two states with the same `MODE`, `RND`, turns and refused mark go the same
way: on, refused for the same reason, or to the same fault. -/
def Obligations.StepsDoNotDependOnData : Prop :=
  ∀ s1 s2 : State, s1.mode = s2.mode → s1.rnd = s2.rnd → s1.turns = s2.turns → s1.refusal = s2.refusal →
    (∀ t1, step s1 = .next t1 →
      ∃ t2, step s2 = .next t2 ∧ t2.turns = t1.turns ∧ t2.refusal = t1.refusal ∧
        (t1.refusal = none → t2.mode = t1.mode ∧ t2.rnd = t1.rnd)) ∧
    (∀ f, step s1 = .fault f → step s2 = .fault f)

/-- R195: only the block steps of KEYSCHED write `KS`; WRKEY and GENKEY change `KEY` and leave `KS` alone; ENC and DEC
never look at `KEY`: from any point of a cipher operation on, another key changes nothing but `KEY`. What GENKEY writes
is the free value of log 5, `Config.entropy`, of which nothing is known: that clause is the model's form of R152. -/
def Obligations.ScheduleCanBeStale : Prop :=
  (∀ (i : Instr) (s t : State), exec i s = .next t → t.ks = s.ks) ∧
  (∀ s t : State, blockStep s = .next t → s.mode ≠ 4 → t.ks = s.ks) ∧
  (∀ (s t : State) (v : Block), exec (.wrkey v) s = .next t → t.key = v) ∧
  (∀ s t : State, s.mode = 2 → blockStep s = .next t → t.key = Config.entropy s.draws) ∧
  ∀ (s t : State) (v : Block) (n : Nat), s.cipherBusy → blockRun n s = .next t →
    blockRun n (s.withKey v) = .next (t.withKey v)

/-- R135, R19, R20: what an earlier operation left in `L`, `R` has no effect on a cipher operation, nor `C`, `D` on a
KEYSCHED: the first step is the same whatever they hold. -/
def Obligations.EngineKeepsNothing : Prop :=
  ∀ (s : State) (a b : Half) (c d : KeyHalf), s.rnd = 0 →
    (s.cipherBusy → blockStep (s.withHalves a b) = blockStep s) ∧
    (s.mode = 4 → blockStep (s.withKeyHalves c d) = blockStep s)

/-- R190: reset in any state, a refused one too, clears the refused mark and leaves `MODE = 3`, `RND = 0` and
unspecified data in every other register (the turn carries it, log 4); the block agent has no step, and the host may
issue any transaction. -/
def Obligations.ResetLeavesTheCoreIdle : Prop :=
  ∀ (s : State) (data : ResetData) (rest : List Turn), s.turns = .reset data :: rest →
    ∃ t, step s = .next t ∧ t.refusal = none ∧ t.mode = 3 ∧ t.rnd = 0 ∧ t.key = data.key ∧ t.din = data.din ∧
      t.dout = data.dout ∧ t.ks = data.ks ∧ t.l = data.l ∧ t.r = data.r ∧ t.c = data.c ∧ t.d = data.d ∧
      blockStep t = .next t ∧ ∀ i : Instr, i.wf = true → ∃ u, exec i t = .next u

/-- R191: reset keeps nothing: two cores in any states, refused or not, given the same reset, are in the same state
after it. -/
def Obligations.ResetForgetsTheState : Prop :=
  ∀ s1 s2 : State, s1.turns = s2.turns → s1.draws = s2.draws → (∃ data rest, s1.turns = .reset data :: rest) →
    step s1 = step s2

/-- R23: the reset state: `MODE = 3`, `RND = 0`, not refused, and any assignment of values to the other registers is one
that reset may leave. -/
def Obligations.ResetDataIsUnspecified : Prop :=
  ∀ s : State, s.mode = 3 → s.rnd = 0 → s.refusal = none →
    (∃ data, { State.resetWith data with rdata := s.rdata, turns := s.turns, draws := s.draws } = s) ∧
    ∀ data, (State.resetWith data).mode = 3 ∧ (State.resetWith data).rnd = 0 ∧ (State.resetWith data).refusal = none
end

