-- ==== Sys2Proof/Laws/State.lean ====
section
/-! SUPPORT. Laws/State.lean: one lemma per field per update of State, so that no later proof unfolds a record update. -/

namespace Sys2Proof.Machine

@[simp] theorem State.withMode_mode (s : State) (m : BitVec 3) : (s.withMode m).mode = m := rfl
@[simp] theorem State.withMode_rnd (s : State) (m : BitVec 3) : (s.withMode m).rnd = s.rnd := rfl
@[simp] theorem State.withMode_key (s : State) (m : BitVec 3) : (s.withMode m).key = s.key := rfl
@[simp] theorem State.withMode_din (s : State) (m : BitVec 3) : (s.withMode m).din = s.din := rfl
@[simp] theorem State.withMode_dout (s : State) (m : BitVec 3) : (s.withMode m).dout = s.dout := rfl
@[simp] theorem State.withMode_ks (s : State) (m : BitVec 3) : (s.withMode m).ks = s.ks := rfl
@[simp] theorem State.withMode_l (s : State) (m : BitVec 3) : (s.withMode m).l = s.l := rfl
@[simp] theorem State.withMode_r (s : State) (m : BitVec 3) : (s.withMode m).r = s.r := rfl
@[simp] theorem State.withMode_c (s : State) (m : BitVec 3) : (s.withMode m).c = s.c := rfl
@[simp] theorem State.withMode_d (s : State) (m : BitVec 3) : (s.withMode m).d = s.d := rfl
@[simp] theorem State.withMode_refusal (s : State) (m : BitVec 3) : (s.withMode m).refusal = s.refusal := rfl
@[simp] theorem State.withMode_rdata (s : State) (m : BitVec 3) : (s.withMode m).rdata = s.rdata := rfl
@[simp] theorem State.withMode_turns (s : State) (m : BitVec 3) : (s.withMode m).turns = s.turns := rfl
@[simp] theorem State.withMode_draws (s : State) (m : BitVec 3) : (s.withMode m).draws = s.draws := rfl

@[simp] theorem State.withRnd_mode (s : State) (n : BitVec 5) : (s.withRnd n).mode = s.mode := rfl
@[simp] theorem State.withRnd_rnd (s : State) (n : BitVec 5) : (s.withRnd n).rnd = n := rfl
@[simp] theorem State.withRnd_key (s : State) (n : BitVec 5) : (s.withRnd n).key = s.key := rfl
@[simp] theorem State.withRnd_din (s : State) (n : BitVec 5) : (s.withRnd n).din = s.din := rfl
@[simp] theorem State.withRnd_dout (s : State) (n : BitVec 5) : (s.withRnd n).dout = s.dout := rfl
@[simp] theorem State.withRnd_ks (s : State) (n : BitVec 5) : (s.withRnd n).ks = s.ks := rfl
@[simp] theorem State.withRnd_l (s : State) (n : BitVec 5) : (s.withRnd n).l = s.l := rfl
@[simp] theorem State.withRnd_r (s : State) (n : BitVec 5) : (s.withRnd n).r = s.r := rfl
@[simp] theorem State.withRnd_c (s : State) (n : BitVec 5) : (s.withRnd n).c = s.c := rfl
@[simp] theorem State.withRnd_d (s : State) (n : BitVec 5) : (s.withRnd n).d = s.d := rfl
@[simp] theorem State.withRnd_refusal (s : State) (n : BitVec 5) : (s.withRnd n).refusal = s.refusal := rfl
@[simp] theorem State.withRnd_rdata (s : State) (n : BitVec 5) : (s.withRnd n).rdata = s.rdata := rfl
@[simp] theorem State.withRnd_turns (s : State) (n : BitVec 5) : (s.withRnd n).turns = s.turns := rfl
@[simp] theorem State.withRnd_draws (s : State) (n : BitVec 5) : (s.withRnd n).draws = s.draws := rfl

@[simp] theorem State.withKey_mode (s : State) (v : Block) : (s.withKey v).mode = s.mode := rfl
@[simp] theorem State.withKey_rnd (s : State) (v : Block) : (s.withKey v).rnd = s.rnd := rfl
@[simp] theorem State.withKey_key (s : State) (v : Block) : (s.withKey v).key = v := rfl
@[simp] theorem State.withKey_din (s : State) (v : Block) : (s.withKey v).din = s.din := rfl
@[simp] theorem State.withKey_dout (s : State) (v : Block) : (s.withKey v).dout = s.dout := rfl
@[simp] theorem State.withKey_ks (s : State) (v : Block) : (s.withKey v).ks = s.ks := rfl
@[simp] theorem State.withKey_l (s : State) (v : Block) : (s.withKey v).l = s.l := rfl
@[simp] theorem State.withKey_r (s : State) (v : Block) : (s.withKey v).r = s.r := rfl
@[simp] theorem State.withKey_c (s : State) (v : Block) : (s.withKey v).c = s.c := rfl
@[simp] theorem State.withKey_d (s : State) (v : Block) : (s.withKey v).d = s.d := rfl
@[simp] theorem State.withKey_refusal (s : State) (v : Block) : (s.withKey v).refusal = s.refusal := rfl
@[simp] theorem State.withKey_rdata (s : State) (v : Block) : (s.withKey v).rdata = s.rdata := rfl
@[simp] theorem State.withKey_turns (s : State) (v : Block) : (s.withKey v).turns = s.turns := rfl
@[simp] theorem State.withKey_draws (s : State) (v : Block) : (s.withKey v).draws = s.draws := rfl

@[simp] theorem State.withDin_mode (s : State) (v : Block) : (s.withDin v).mode = s.mode := rfl
@[simp] theorem State.withDin_rnd (s : State) (v : Block) : (s.withDin v).rnd = s.rnd := rfl
@[simp] theorem State.withDin_key (s : State) (v : Block) : (s.withDin v).key = s.key := rfl
@[simp] theorem State.withDin_din (s : State) (v : Block) : (s.withDin v).din = v := rfl
@[simp] theorem State.withDin_dout (s : State) (v : Block) : (s.withDin v).dout = s.dout := rfl
@[simp] theorem State.withDin_ks (s : State) (v : Block) : (s.withDin v).ks = s.ks := rfl
@[simp] theorem State.withDin_l (s : State) (v : Block) : (s.withDin v).l = s.l := rfl
@[simp] theorem State.withDin_r (s : State) (v : Block) : (s.withDin v).r = s.r := rfl
@[simp] theorem State.withDin_c (s : State) (v : Block) : (s.withDin v).c = s.c := rfl
@[simp] theorem State.withDin_d (s : State) (v : Block) : (s.withDin v).d = s.d := rfl
@[simp] theorem State.withDin_refusal (s : State) (v : Block) : (s.withDin v).refusal = s.refusal := rfl
@[simp] theorem State.withDin_rdata (s : State) (v : Block) : (s.withDin v).rdata = s.rdata := rfl
@[simp] theorem State.withDin_turns (s : State) (v : Block) : (s.withDin v).turns = s.turns := rfl
@[simp] theorem State.withDin_draws (s : State) (v : Block) : (s.withDin v).draws = s.draws := rfl

@[simp] theorem State.withDout_mode (s : State) (v : Block) : (s.withDout v).mode = s.mode := rfl
@[simp] theorem State.withDout_rnd (s : State) (v : Block) : (s.withDout v).rnd = s.rnd := rfl
@[simp] theorem State.withDout_key (s : State) (v : Block) : (s.withDout v).key = s.key := rfl
@[simp] theorem State.withDout_din (s : State) (v : Block) : (s.withDout v).din = s.din := rfl
@[simp] theorem State.withDout_dout (s : State) (v : Block) : (s.withDout v).dout = v := rfl
@[simp] theorem State.withDout_ks (s : State) (v : Block) : (s.withDout v).ks = s.ks := rfl
@[simp] theorem State.withDout_l (s : State) (v : Block) : (s.withDout v).l = s.l := rfl
@[simp] theorem State.withDout_r (s : State) (v : Block) : (s.withDout v).r = s.r := rfl
@[simp] theorem State.withDout_c (s : State) (v : Block) : (s.withDout v).c = s.c := rfl
@[simp] theorem State.withDout_d (s : State) (v : Block) : (s.withDout v).d = s.d := rfl
@[simp] theorem State.withDout_refusal (s : State) (v : Block) : (s.withDout v).refusal = s.refusal := rfl
@[simp] theorem State.withDout_rdata (s : State) (v : Block) : (s.withDout v).rdata = s.rdata := rfl
@[simp] theorem State.withDout_turns (s : State) (v : Block) : (s.withDout v).turns = s.turns := rfl
@[simp] theorem State.withDout_draws (s : State) (v : Block) : (s.withDout v).draws = s.draws := rfl

@[simp] theorem State.withKs_mode (s : State) (ks : Vector KeySet 17) : (s.withKs ks).mode = s.mode := rfl
@[simp] theorem State.withKs_rnd (s : State) (ks : Vector KeySet 17) : (s.withKs ks).rnd = s.rnd := rfl
@[simp] theorem State.withKs_key (s : State) (ks : Vector KeySet 17) : (s.withKs ks).key = s.key := rfl
@[simp] theorem State.withKs_din (s : State) (ks : Vector KeySet 17) : (s.withKs ks).din = s.din := rfl
@[simp] theorem State.withKs_dout (s : State) (ks : Vector KeySet 17) : (s.withKs ks).dout = s.dout := rfl
@[simp] theorem State.withKs_ks (s : State) (ks : Vector KeySet 17) : (s.withKs ks).ks = ks := rfl
@[simp] theorem State.withKs_l (s : State) (ks : Vector KeySet 17) : (s.withKs ks).l = s.l := rfl
@[simp] theorem State.withKs_r (s : State) (ks : Vector KeySet 17) : (s.withKs ks).r = s.r := rfl
@[simp] theorem State.withKs_c (s : State) (ks : Vector KeySet 17) : (s.withKs ks).c = s.c := rfl
@[simp] theorem State.withKs_d (s : State) (ks : Vector KeySet 17) : (s.withKs ks).d = s.d := rfl
@[simp] theorem State.withKs_refusal (s : State) (ks : Vector KeySet 17) : (s.withKs ks).refusal = s.refusal := rfl
@[simp] theorem State.withKs_rdata (s : State) (ks : Vector KeySet 17) : (s.withKs ks).rdata = s.rdata := rfl
@[simp] theorem State.withKs_turns (s : State) (ks : Vector KeySet 17) : (s.withKs ks).turns = s.turns := rfl
@[simp] theorem State.withKs_draws (s : State) (ks : Vector KeySet 17) : (s.withKs ks).draws = s.draws := rfl

@[simp] theorem State.withKsEntry_mode (s : State) (i : Nat) (e : KeySet) : (s.withKsEntry i e).mode = s.mode := rfl
@[simp] theorem State.withKsEntry_rnd (s : State) (i : Nat) (e : KeySet) : (s.withKsEntry i e).rnd = s.rnd := rfl
@[simp] theorem State.withKsEntry_key (s : State) (i : Nat) (e : KeySet) : (s.withKsEntry i e).key = s.key := rfl
@[simp] theorem State.withKsEntry_din (s : State) (i : Nat) (e : KeySet) : (s.withKsEntry i e).din = s.din := rfl
@[simp] theorem State.withKsEntry_dout (s : State) (i : Nat) (e : KeySet) : (s.withKsEntry i e).dout = s.dout := rfl
@[simp] theorem State.withKsEntry_ks (s : State) (i : Nat) (e : KeySet) : (s.withKsEntry i e).ks = s.ks.setIfInBounds i e := rfl
@[simp] theorem State.withKsEntry_l (s : State) (i : Nat) (e : KeySet) : (s.withKsEntry i e).l = s.l := rfl
@[simp] theorem State.withKsEntry_r (s : State) (i : Nat) (e : KeySet) : (s.withKsEntry i e).r = s.r := rfl
@[simp] theorem State.withKsEntry_c (s : State) (i : Nat) (e : KeySet) : (s.withKsEntry i e).c = s.c := rfl
@[simp] theorem State.withKsEntry_d (s : State) (i : Nat) (e : KeySet) : (s.withKsEntry i e).d = s.d := rfl
@[simp] theorem State.withKsEntry_refusal (s : State) (i : Nat) (e : KeySet) : (s.withKsEntry i e).refusal = s.refusal := rfl
@[simp] theorem State.withKsEntry_rdata (s : State) (i : Nat) (e : KeySet) : (s.withKsEntry i e).rdata = s.rdata := rfl
@[simp] theorem State.withKsEntry_turns (s : State) (i : Nat) (e : KeySet) : (s.withKsEntry i e).turns = s.turns := rfl
@[simp] theorem State.withKsEntry_draws (s : State) (i : Nat) (e : KeySet) : (s.withKsEntry i e).draws = s.draws := rfl

@[simp] theorem State.withHalves_mode (s : State) (a b : Half) : (s.withHalves a b).mode = s.mode := rfl
@[simp] theorem State.withHalves_rnd (s : State) (a b : Half) : (s.withHalves a b).rnd = s.rnd := rfl
@[simp] theorem State.withHalves_key (s : State) (a b : Half) : (s.withHalves a b).key = s.key := rfl
@[simp] theorem State.withHalves_din (s : State) (a b : Half) : (s.withHalves a b).din = s.din := rfl
@[simp] theorem State.withHalves_dout (s : State) (a b : Half) : (s.withHalves a b).dout = s.dout := rfl
@[simp] theorem State.withHalves_ks (s : State) (a b : Half) : (s.withHalves a b).ks = s.ks := rfl
@[simp] theorem State.withHalves_l (s : State) (a b : Half) : (s.withHalves a b).l = a := rfl
@[simp] theorem State.withHalves_r (s : State) (a b : Half) : (s.withHalves a b).r = b := rfl
@[simp] theorem State.withHalves_c (s : State) (a b : Half) : (s.withHalves a b).c = s.c := rfl
@[simp] theorem State.withHalves_d (s : State) (a b : Half) : (s.withHalves a b).d = s.d := rfl
@[simp] theorem State.withHalves_refusal (s : State) (a b : Half) : (s.withHalves a b).refusal = s.refusal := rfl
@[simp] theorem State.withHalves_rdata (s : State) (a b : Half) : (s.withHalves a b).rdata = s.rdata := rfl
@[simp] theorem State.withHalves_turns (s : State) (a b : Half) : (s.withHalves a b).turns = s.turns := rfl
@[simp] theorem State.withHalves_draws (s : State) (a b : Half) : (s.withHalves a b).draws = s.draws := rfl

@[simp] theorem State.withKeyHalves_mode (s : State) (a b : KeyHalf) : (s.withKeyHalves a b).mode = s.mode := rfl
@[simp] theorem State.withKeyHalves_rnd (s : State) (a b : KeyHalf) : (s.withKeyHalves a b).rnd = s.rnd := rfl
@[simp] theorem State.withKeyHalves_key (s : State) (a b : KeyHalf) : (s.withKeyHalves a b).key = s.key := rfl
@[simp] theorem State.withKeyHalves_din (s : State) (a b : KeyHalf) : (s.withKeyHalves a b).din = s.din := rfl
@[simp] theorem State.withKeyHalves_dout (s : State) (a b : KeyHalf) : (s.withKeyHalves a b).dout = s.dout := rfl
@[simp] theorem State.withKeyHalves_ks (s : State) (a b : KeyHalf) : (s.withKeyHalves a b).ks = s.ks := rfl
@[simp] theorem State.withKeyHalves_l (s : State) (a b : KeyHalf) : (s.withKeyHalves a b).l = s.l := rfl
@[simp] theorem State.withKeyHalves_r (s : State) (a b : KeyHalf) : (s.withKeyHalves a b).r = s.r := rfl
@[simp] theorem State.withKeyHalves_c (s : State) (a b : KeyHalf) : (s.withKeyHalves a b).c = a := rfl
@[simp] theorem State.withKeyHalves_d (s : State) (a b : KeyHalf) : (s.withKeyHalves a b).d = b := rfl
@[simp] theorem State.withKeyHalves_refusal (s : State) (a b : KeyHalf) : (s.withKeyHalves a b).refusal = s.refusal := rfl
@[simp] theorem State.withKeyHalves_rdata (s : State) (a b : KeyHalf) : (s.withKeyHalves a b).rdata = s.rdata := rfl
@[simp] theorem State.withKeyHalves_turns (s : State) (a b : KeyHalf) : (s.withKeyHalves a b).turns = s.turns := rfl
@[simp] theorem State.withKeyHalves_draws (s : State) (a b : KeyHalf) : (s.withKeyHalves a b).draws = s.draws := rfl

@[simp] theorem State.withAnswer_mode (s : State) (a : Option Block) : (s.withAnswer a).mode = s.mode := rfl
@[simp] theorem State.withAnswer_rnd (s : State) (a : Option Block) : (s.withAnswer a).rnd = s.rnd := rfl
@[simp] theorem State.withAnswer_key (s : State) (a : Option Block) : (s.withAnswer a).key = s.key := rfl
@[simp] theorem State.withAnswer_din (s : State) (a : Option Block) : (s.withAnswer a).din = s.din := rfl
@[simp] theorem State.withAnswer_dout (s : State) (a : Option Block) : (s.withAnswer a).dout = s.dout := rfl
@[simp] theorem State.withAnswer_ks (s : State) (a : Option Block) : (s.withAnswer a).ks = s.ks := rfl
@[simp] theorem State.withAnswer_l (s : State) (a : Option Block) : (s.withAnswer a).l = s.l := rfl
@[simp] theorem State.withAnswer_r (s : State) (a : Option Block) : (s.withAnswer a).r = s.r := rfl
@[simp] theorem State.withAnswer_c (s : State) (a : Option Block) : (s.withAnswer a).c = s.c := rfl
@[simp] theorem State.withAnswer_d (s : State) (a : Option Block) : (s.withAnswer a).d = s.d := rfl
@[simp] theorem State.withAnswer_refusal (s : State) (a : Option Block) : (s.withAnswer a).refusal = s.refusal := rfl
@[simp] theorem State.withAnswer_rdata (s : State) (a : Option Block) : (s.withAnswer a).rdata = a := rfl
@[simp] theorem State.withAnswer_turns (s : State) (a : Option Block) : (s.withAnswer a).turns = s.turns := rfl
@[simp] theorem State.withAnswer_draws (s : State) (a : Option Block) : (s.withAnswer a).draws = s.draws := rfl

@[simp] theorem State.withTurns_mode (s : State) (ts : List Turn) : (s.withTurns ts).mode = s.mode := rfl
@[simp] theorem State.withTurns_rnd (s : State) (ts : List Turn) : (s.withTurns ts).rnd = s.rnd := rfl
@[simp] theorem State.withTurns_key (s : State) (ts : List Turn) : (s.withTurns ts).key = s.key := rfl
@[simp] theorem State.withTurns_din (s : State) (ts : List Turn) : (s.withTurns ts).din = s.din := rfl
@[simp] theorem State.withTurns_dout (s : State) (ts : List Turn) : (s.withTurns ts).dout = s.dout := rfl
@[simp] theorem State.withTurns_ks (s : State) (ts : List Turn) : (s.withTurns ts).ks = s.ks := rfl
@[simp] theorem State.withTurns_l (s : State) (ts : List Turn) : (s.withTurns ts).l = s.l := rfl
@[simp] theorem State.withTurns_r (s : State) (ts : List Turn) : (s.withTurns ts).r = s.r := rfl
@[simp] theorem State.withTurns_c (s : State) (ts : List Turn) : (s.withTurns ts).c = s.c := rfl
@[simp] theorem State.withTurns_d (s : State) (ts : List Turn) : (s.withTurns ts).d = s.d := rfl
@[simp] theorem State.withTurns_refusal (s : State) (ts : List Turn) : (s.withTurns ts).refusal = s.refusal := rfl
@[simp] theorem State.withTurns_rdata (s : State) (ts : List Turn) : (s.withTurns ts).rdata = s.rdata := rfl
@[simp] theorem State.withTurns_turns (s : State) (ts : List Turn) : (s.withTurns ts).turns = ts := rfl
@[simp] theorem State.withTurns_draws (s : State) (ts : List Turn) : (s.withTurns ts).draws = s.draws := rfl

@[simp] theorem State.countDraw_mode (s : State) : (s.countDraw).mode = s.mode := rfl
@[simp] theorem State.countDraw_rnd (s : State) : (s.countDraw).rnd = s.rnd := rfl
@[simp] theorem State.countDraw_key (s : State) : (s.countDraw).key = s.key := rfl
@[simp] theorem State.countDraw_din (s : State) : (s.countDraw).din = s.din := rfl
@[simp] theorem State.countDraw_dout (s : State) : (s.countDraw).dout = s.dout := rfl
@[simp] theorem State.countDraw_ks (s : State) : (s.countDraw).ks = s.ks := rfl
@[simp] theorem State.countDraw_l (s : State) : (s.countDraw).l = s.l := rfl
@[simp] theorem State.countDraw_r (s : State) : (s.countDraw).r = s.r := rfl
@[simp] theorem State.countDraw_c (s : State) : (s.countDraw).c = s.c := rfl
@[simp] theorem State.countDraw_d (s : State) : (s.countDraw).d = s.d := rfl
@[simp] theorem State.countDraw_refusal (s : State) : (s.countDraw).refusal = s.refusal := rfl
@[simp] theorem State.countDraw_rdata (s : State) : (s.countDraw).rdata = s.rdata := rfl
@[simp] theorem State.countDraw_turns (s : State) : (s.countDraw).turns = s.turns := rfl
@[simp] theorem State.countDraw_draws (s : State) : (s.countDraw).draws = s.draws + 1 := rfl

@[simp] theorem State.finish_mode (s : State) : (s.finish).mode = 3 := rfl
@[simp] theorem State.finish_rnd (s : State) : (s.finish).rnd = 0 := rfl
@[simp] theorem State.finish_key (s : State) : (s.finish).key = s.key := rfl
@[simp] theorem State.finish_din (s : State) : (s.finish).din = s.din := rfl
@[simp] theorem State.finish_dout (s : State) : (s.finish).dout = s.dout := rfl
@[simp] theorem State.finish_ks (s : State) : (s.finish).ks = s.ks := rfl
@[simp] theorem State.finish_l (s : State) : (s.finish).l = s.l := rfl
@[simp] theorem State.finish_r (s : State) : (s.finish).r = s.r := rfl
@[simp] theorem State.finish_c (s : State) : (s.finish).c = s.c := rfl
@[simp] theorem State.finish_d (s : State) : (s.finish).d = s.d := rfl
@[simp] theorem State.finish_refusal (s : State) : (s.finish).refusal = s.refusal := rfl
@[simp] theorem State.finish_rdata (s : State) : (s.finish).rdata = s.rdata := rfl
@[simp] theorem State.finish_turns (s : State) : (s.finish).turns = s.turns := rfl
@[simp] theorem State.finish_draws (s : State) : (s.finish).draws = s.draws := rfl

/-- Reset leaves the data the turn carries, an idle core, and the turns and draws that are not the core's (R190). -/
@[simp] theorem takeReset_mode (x : ResetData) (s : State) : (takeReset x s).mode = 3 := rfl
@[simp] theorem takeReset_rnd (x : ResetData) (s : State) : (takeReset x s).rnd = 0 := rfl
@[simp] theorem takeReset_key (x : ResetData) (s : State) : (takeReset x s).key = x.key := rfl
@[simp] theorem takeReset_din (x : ResetData) (s : State) : (takeReset x s).din = x.din := rfl
@[simp] theorem takeReset_dout (x : ResetData) (s : State) : (takeReset x s).dout = x.dout := rfl
@[simp] theorem takeReset_ks (x : ResetData) (s : State) : (takeReset x s).ks = x.ks := rfl
@[simp] theorem takeReset_l (x : ResetData) (s : State) : (takeReset x s).l = x.l := rfl
@[simp] theorem takeReset_r (x : ResetData) (s : State) : (takeReset x s).r = x.r := rfl
@[simp] theorem takeReset_c (x : ResetData) (s : State) : (takeReset x s).c = x.c := rfl
@[simp] theorem takeReset_d (x : ResetData) (s : State) : (takeReset x s).d = x.d := rfl
@[simp] theorem takeReset_refusal (x : ResetData) (s : State) : (takeReset x s).refusal = none := rfl
@[simp] theorem takeReset_rdata (x : ResetData) (s : State) : (takeReset x s).rdata = none := rfl
@[simp] theorem takeReset_turns (x : ResetData) (s : State) : (takeReset x s).turns = s.turns := rfl
@[simp] theorem takeReset_draws (x : ResetData) (s : State) : (takeReset x s).draws = s.draws := rfl

/-- Of a refused core only the mark, the turns and the count are known (R172). -/
@[simp] theorem State.lose_refusal (s : State) (x : Refusal) : (s.lose x).refusal = some x := rfl
@[simp] theorem State.lose_turns (s : State) (x : Refusal) : (s.lose x).turns = s.turns := rfl
@[simp] theorem State.lose_draws (s : State) (x : Refusal) : (s.lose x).draws = s.draws + 1 := rfl

/-- What a refused core holds depends on the turns to come and the count alone. -/
theorem State.lose_congr {s t : State} (x : Refusal) (ht : s.turns = t.turns) (hd : s.draws = t.draws) :
    s.lose x = t.lose x := by
  simp [State.lose, ht, hd]

/-- Writing back what a field holds changes nothing. -/
theorem State.withTurns_self (s : State) : s.withTurns s.turns = s := rfl

/-- The later of two writes of the answer stands. -/
@[simp] theorem State.withAnswer_withAnswer (s : State) (a b : Option Block) :
    (s.withAnswer a).withAnswer b = s.withAnswer b := rfl

/-- An entry reads as written at its own index. -/
theorem ksRead_setIfInBounds_self (ks : Vector KeySet 17) (i : Nat) (e : KeySet) (h : i < 17) :
    ksRead (ks.setIfInBounds i e) i = e := by
  simp [ksRead, h]

/-- An entry reads as before after a write of another entry. -/
theorem ksRead_setIfInBounds_ne (ks : Vector KeySet 17) (i j : Nat) (e : KeySet) (h : i ≠ j) :
    ksRead (ks.setIfInBounds i e) j = ksRead ks j := by
  simp [ksRead, h]

/-- Two files with the same 17 entries are the same file. -/
theorem ks_ext {a b : Vector KeySet 17} (h : ∀ i, i < 17 → ksRead a i = ksRead b i) : a = b := by
  apply Vector.ext
  intro i hi
  have := h i hi
  simpa [ksRead, hi] using this

end Sys2Proof.Machine
end

