-- ==== Sys2Proof/Laws/Ops.lean ====
section
/-! SUPPORT. Laws/Ops.lean: what each shared operation can do, said once: the host transactions' operations and the steps
of the block agent. -/

namespace Sys2Proof.Machine

/-- A write or a command: performed exactly on an idle core, answering nothing; else `BusyWrite` (R164). -/
theorem whenIdle_idle {s : State} (t : State) (h : s.mode = 3) : whenIdle s t = .next (t.withAnswer none) := by
  simp [whenIdle, State.idle, h]

theorem whenIdle_busy {s : State} (t : State) (h : s.mode ≠ 3) : whenIdle s t = .refused .busyWrite := by
  rw [whenIdle, State.idle, if_neg (by simpa using h)]

/-- Inversion: if a write or a command answers a next state, the core was idle and the state is the written one. -/
theorem whenIdle_next {s t u : State} (h : whenIdle s t = .next u) : s.mode = 3 ∧ u = t.withAnswer none := by
  by_cases hm : s.mode = 3
  · rw [whenIdle_idle t hm] at h
    exact ⟨hm, (Host.Outcome.next.inj h).symm⟩
  · rw [whenIdle_busy t hm] at h
    cases h

theorem acceptCommand_idle {s : State} (c : BitVec 3) (h : s.mode = 3) :
    acceptCommand s c = .next ((s.withMode c).withAnswer none) := whenIdle_idle _ h

theorem acceptCommand_next {s u : State} {c : BitVec 3} (h : acceptCommand s c = .next u) :
    s.mode = 3 ∧ u = (s.withMode c).withAnswer none := whenIdle_next h

/-- A `KS` read answers the entry for an index 0 to 16 unless `MODE = 4` (R159 to R161, R164). -/
theorem answerKs_readable {s : State} {i : BitVec 5} (view : KeySet → Block) (hi : i.toNat ≤ 16) (h : s.mode ≠ 4) :
    answerKs s i view = .next (s.withAnswer (some (view (ksRead s.ks i.toNat)))) := by
  rw [answerKs, if_pos hi, State.ksReadable, if_pos (by simpa using h)]

theorem answerKs_busy {s : State} {i : BitVec 5} (view : KeySet → Block) (hi : i.toNat ≤ 16) (h : s.mode = 4) :
    answerKs s i view = .refused .busyScheduleRead := by
  simp [answerKs, State.ksReadable, hi, h]

theorem answerKs_outOfRange (s : State) {i : BitVec 5} (view : KeySet → Block) (hi : ¬ i.toNat ≤ 16) :
    answerKs s i view = .refused .indexOutOfRange := by
  simp [answerKs, hi]

/-- Inversion: if a `KS` read answers, the index is 0 to 16, `MODE` is not 4 and the state differs in the answer only. -/
theorem answerKs_next {s u : State} {i : BitVec 5} {view : KeySet → Block} (h : answerKs s i view = .next u) :
    i.toNat ≤ 16 ∧ s.mode ≠ 4 ∧ u = s.withAnswer (some (view (ksRead s.ks i.toNat))) := by
  by_cases hi : i.toNat ≤ 16
  · by_cases hm : s.mode = 4
    · rw [answerKs_busy view hi hm] at h
      cases h
    · rw [answerKs_readable view hi hm] at h
      exact ⟨hi, hm, (Host.Outcome.next.inj h).symm⟩
  · rw [answerKs_outOfRange s view hi] at h
    cases h

/-- Which step a cipher operation takes (R18, R137 to R139). -/
theorem cipherStep_cases (dir : Direction) (s : State) :
    (s.rnd = 0 ∧ cipherStep dir s = .next (cipherInit s)) ∨
    (s.rnd ≠ 0 ∧ s.rnd.toNat ≤ 16 ∧ cipherStep dir s = .next (cipherRound dir s)) ∨
    (s.rnd = 17 ∧ cipherStep dir s = .next (cipherFinal s)) ∨
    (17 < s.rnd.toNat ∧ cipherStep dir s = .fault .unreachableSequencer) := by
  by_cases h0 : s.rnd = 0
  · exact .inl ⟨h0, by simp [cipherStep, h0]⟩
  by_cases h16 : s.rnd.toNat ≤ 16
  · exact .inr (.inl ⟨h0, h16, by rw [cipherStep, if_neg h0, if_pos h16]⟩)
  by_cases h17 : s.rnd = 17
  · exact .inr (.inr (.inl ⟨h17, by simp [cipherStep, h17]⟩))
  · refine .inr (.inr (.inr ⟨?_, by rw [cipherStep, if_neg h0, if_neg h16, if_neg h17]⟩))
    have : s.rnd.toNat ≠ 17 := fun h => h17 (BitVec.eq_of_toNat_eq h)
    omega

/-- Which step KEYSCHED takes (R18, R98, R99). -/
theorem keyschedStep_cases (s : State) :
    (s.rnd = 0 ∧ keyschedStep s = .next (ksInit s)) ∨
    (s.rnd ≠ 0 ∧ s.rnd.toNat < 16 ∧
      keyschedStep s = .next ((ksRoundWrites s s.rnd.toNat).withRnd (s.rnd + 1))) ∨
    (s.rnd.toNat = 16 ∧ keyschedStep s = .next (ksRoundWrites s 16).finish) ∨
    (16 < s.rnd.toNat ∧ keyschedStep s = .fault .unreachableSequencer) := by
  by_cases h0 : s.rnd = 0
  · exact .inl ⟨h0, by simp [keyschedStep, h0]⟩
  by_cases h16 : s.rnd.toNat < 16
  · exact .inr (.inl ⟨h0, h16, by rw [keyschedStep, if_neg h0, if_pos (Nat.le_of_lt h16), ksRound, if_pos h16]⟩)
  by_cases h : s.rnd.toNat = 16
  · exact .inr (.inr (.inl ⟨h, by rw [keyschedStep, if_neg h0, if_pos (Nat.le_of_eq h), ksRound, if_neg h16, h]⟩))
  · have hgt : 16 < s.rnd.toNat := by omega
    exact .inr (.inr (.inr ⟨hgt, by rw [keyschedStep, if_neg h0, if_neg (Nat.not_le.mpr hgt)]⟩))

/-- The step of the block agent for each value of `MODE` (R18, R150). -/
theorem blockStep_dec {s : State} (h : s.mode = 0) : blockStep s = cipherStep .decrypt s := by
  simp [blockStep, h, decStep]

theorem blockStep_enc {s : State} (h : s.mode = 1) : blockStep s = cipherStep .encrypt s := by
  simp [blockStep, h, encStep]

theorem blockStep_genkey {s : State} (h : s.mode = 2) : blockStep s = genkeyStep s := by
  simp [blockStep, h]

theorem blockStep_idle {s : State} (h : s.mode = 3) : blockStep s = .next s := by
  simp [blockStep, h]

theorem blockStep_keysched {s : State} (h : s.mode = 4) : blockStep s = keyschedStep s := by
  simp [blockStep, h]

/-- `MODE` is one of the five codes of R16 or a reserved one. -/
theorem mode_cases (m : BitVec 3) : m = 0 ∨ m = 1 ∨ m = 2 ∨ m = 3 ∨ m = 4 ∨ 5 ≤ m.toNat := by
  revert m
  decide

theorem blockStep_reserved {s : State} (h : 5 ≤ s.mode.toNat) : blockStep s = .fault .unreachableSequencer := by
  unfold blockStep
  split <;> first | omega | rfl

/-- The block agent refuses nothing. -/
theorem blockStep_not_refused (s : State) (r : Refusal) : blockStep s ≠ .refused r := by
  intro h
  rcases mode_cases s.mode with hm | hm | hm | hm | hm | hm
  · rw [blockStep_dec hm] at h
    rcases cipherStep_cases .decrypt s with ⟨_, e⟩ | ⟨_, _, e⟩ | ⟨_, e⟩ | ⟨_, e⟩ <;> rw [e] at h <;> cases h
  · rw [blockStep_enc hm] at h
    rcases cipherStep_cases .encrypt s with ⟨_, e⟩ | ⟨_, _, e⟩ | ⟨_, e⟩ | ⟨_, e⟩ <;> rw [e] at h <;> cases h
  · rw [blockStep_genkey hm, genkeyStep] at h
    split at h <;> cases h
  · rw [blockStep_idle hm] at h
    cases h
  · rw [blockStep_keysched hm] at h
    rcases keyschedStep_cases s with ⟨_, e⟩ | ⟨_, _, e⟩ | ⟨_, e⟩ | ⟨_, e⟩ <;> rw [e] at h <;> cases h
  · rw [blockStep_reserved hm] at h
    cases h

end Sys2Proof.Machine
end

