-- ==== Sys2Proof/Laws/Exec.lean ====
section
/-! SUPPORT. Laws/Exec.lean: what a host transaction and a block step can do when they go on, said once; what the
key-schedule file reads as after a whole schedule is written. -/

namespace Sys2Proof.Machine

/-- Inversion of a host transaction that is performed: a read changes the answer only; on an idle core WRDIN and WRKEY
write their register, DONE nothing, and a command that starts an operation its code to `MODE`. -/
theorem exec_cases {i : Instr} {s t : State} (h : exec i s = .next t) :
    (i.isRead = true ∧ ∃ a, t = s.withAnswer (some a)) ∨
    (s.mode = 3 ∧ ∃ v, i = .wrdin v ∧ t = (s.withDin v).withAnswer none) ∨
    (s.mode = 3 ∧ ∃ v, i = .wrkey v ∧ t = (s.withKey v).withAnswer none) ∨
    (s.mode = 3 ∧ i = .done ∧ t = s.withAnswer none) ∨
    (s.mode = 3 ∧ i.startsOperation = true ∧
      ∃ c : BitVec 3, (c = 0 ∨ c = 1 ∨ c = 2 ∨ c = 4) ∧ t = (s.withMode c).withAnswer none) := by
  have read : ∀ {u : State} {v : Block}, answer u v = .next t → t = u.withAnswer (some v) :=
    fun h => (Host.Outcome.next.inj h).symm
  have command : ∀ {c : BitVec 3}, acceptCommand s c = .next t → s.mode = 3 ∧ t = (s.withMode c).withAnswer none :=
    acceptCommand_next
  cases i with
  | rddin => exact .inl ⟨rfl, _, read h⟩
  | rddout => exact .inl ⟨rfl, _, read h⟩
  | rdkey => exact .inl ⟨rfl, _, read h⟩
  | rdmode => exact .inl ⟨rfl, _, read h⟩
  | rdksk i =>
    simp only [exec, execRdksk] at h
    exact .inl ⟨rfl, _, (answerKs_next h).2.2⟩
  | rdksc i =>
    simp only [exec, execRdksc] at h
    exact .inl ⟨rfl, _, (answerKs_next h).2.2⟩
  | rdksd i =>
    simp only [exec, execRdksd] at h
    exact .inl ⟨rfl, _, (answerKs_next h).2.2⟩
  | wrdin v => exact .inr (.inl ⟨(whenIdle_next h).1, v, rfl, (whenIdle_next h).2⟩)
  | wrkey v => exact .inr (.inr (.inl ⟨(whenIdle_next h).1, v, rfl, (whenIdle_next h).2⟩))
  | done => exact .inr (.inr (.inr (.inl ⟨(whenIdle_next h).1, rfl, (whenIdle_next h).2⟩)))
  | dec => exact .inr (.inr (.inr (.inr ⟨(command h).1, rfl, 0, .inl rfl, (command h).2⟩)))
  | enc => exact .inr (.inr (.inr (.inr ⟨(command h).1, rfl, 1, .inr (.inl rfl), (command h).2⟩)))
  | genkey => exact .inr (.inr (.inr (.inr ⟨(command h).1, rfl, 2, .inr (.inr (.inl rfl)), (command h).2⟩)))
  | keysched => exact .inr (.inr (.inr (.inr ⟨(command h).1, rfl, 4, .inr (.inr (.inr rfl)), (command h).2⟩)))

/-- The block step of a cipher operation, in either direction. -/
theorem blockStep_cipher {s : State} (h : s.cipherBusy) : blockStep s = cipherStep s.direction s := by
  rcases h with h | h
  · rw [blockStep_dec h]
    simp [State.direction, h]
  · rw [blockStep_enc h]
    simp [State.direction, h]

/-- Inversion of a block step of a cipher operation that goes on (R137 to R139), whatever else may hold. -/
theorem cipher_next {s t : State} {p : Prop} (hc : s.cipherBusy) (h : blockStep s = .next t) :
    (s.cipherBusy ∧ s.rnd = 0 ∧ t = cipherInit s) ∨
    (s.cipherBusy ∧ s.rnd ≠ 0 ∧ s.rnd.toNat ≤ 16 ∧ t = cipherRound s.direction s) ∨
    (s.cipherBusy ∧ s.rnd = 17 ∧ t = cipherFinal s) ∨ p := by
  rw [blockStep_cipher hc] at h
  rcases cipherStep_cases s.direction s with ⟨h0, e⟩ | ⟨h0, h1, e⟩ | ⟨h0, e⟩ | ⟨_, e⟩ <;> rw [e] at h <;> cases h
  · exact .inl ⟨hc, h0, rfl⟩
  · exact .inr (.inl ⟨hc, h0, h1, rfl⟩)
  · exact .inr (.inr (.inl ⟨hc, h0, rfl⟩))

/-- Inversion of a block step that goes on: the rows of the table of R18. -/
theorem blockStep_cases {s t : State} (h : blockStep s = .next t) :
    (s.mode = 3 ∧ t = s) ∨
    (s.mode = 2 ∧ s.rnd = 0 ∧ t = genkeyEffect s) ∨
    (s.cipherBusy ∧ s.rnd = 0 ∧ t = cipherInit s) ∨
    (s.cipherBusy ∧ s.rnd ≠ 0 ∧ s.rnd.toNat ≤ 16 ∧ t = cipherRound s.direction s) ∨
    (s.cipherBusy ∧ s.rnd = 17 ∧ t = cipherFinal s) ∨
    (s.mode = 4 ∧ s.rnd = 0 ∧ t = ksInit s) ∨
    (s.mode = 4 ∧ s.rnd ≠ 0 ∧ s.rnd.toNat < 16 ∧ t = (ksRoundWrites s s.rnd.toNat).withRnd (s.rnd + 1)) ∨
    (s.mode = 4 ∧ s.rnd.toNat = 16 ∧ t = (ksRoundWrites s 16).finish) := by
  rcases mode_cases s.mode with hm | hm | hm | hm | hm | hm
  · exact .inr (.inr (cipher_next (.inl hm) h))
  · exact .inr (.inr (cipher_next (.inr hm) h))
  · rw [blockStep_genkey hm, genkeyStep] at h
    split at h <;> cases h
    exact .inr (.inl ⟨hm, ‹_›, rfl⟩)
  · rw [blockStep_idle hm] at h
    cases h
    exact .inl ⟨hm, rfl⟩
  · rw [blockStep_keysched hm] at h
    rcases keyschedStep_cases s with ⟨h0, e⟩ | ⟨h0, h1, e⟩ | ⟨h0, e⟩ | ⟨_, e⟩ <;> rw [e] at h <;> cases h
    · exact .inr (.inr (.inr (.inr (.inr (.inl ⟨hm, h0, rfl⟩)))))
    · exact .inr (.inr (.inr (.inr (.inr (.inr (.inl ⟨hm, h0, h1, rfl⟩))))))
    · exact .inr (.inr (.inr (.inr (.inr (.inr (.inr ⟨hm, h0, rfl⟩))))))
  · rw [blockStep_reserved hm] at h
    cases h

/-- Entry `i` of the schedule of a key is the entry computed for it (R92). -/
theorem ksRead_keyschedFn (key : Block) {i : Nat} (h : i < 17) : ksRead (keyschedFn key) i = keySetAt key i := by
  simp [ksRead, keyschedFn, h]

/-- A write inside the file, in the form without a bound to prove and in the form with one. -/
theorem ks_setIfInBounds_eq_set (v : Vector KeySet 17) {i : Nat} (e : KeySet) (h : i < 17) :
    v.setIfInBounds i e = v.set i e h := by
  apply Vector.ext
  intro j hj
  simp [Vector.getElem_set, Vector.getElem_setIfInBounds]

end Sys2Proof.Machine
end

