-- ==== Sys2Proof/Laws/PerInstr.lean ====
section
/-! SUPPORT. Laws/PerInstr.lean: the statement made once per instruction: its encoding selects its own row of
spec/opcode_table.json. -/

namespace Sys2Proof.Laws.EncodesRow

/-- The H word of a well-formed instruction selects its row: `w & mask = match` (30_encoding.md, opening paragraph). -/
def Statement (i : Instr) : Prop := i.wf = true → encode i &&& i.row.mask = i.row.pattern

/-- The row of a `KS` read leaves exactly the index free. -/
theorem ksRead_selects (digit : BitVec 4) (i : BitVec 5) :
    hword digit (i.setWidth 64) &&& 0xFFFFFFFFFFFFFFFE0 = hword digit 0 := by
  revert digit i
  decide +kernel

/-- The row of a data write leaves exactly the data free. -/
theorem write_selects (digit : BitVec 4) (v : Block) :
    hword digit v &&& 0xF0000000000000000 = hword digit 0 := by
  have h : (0xF0000000000000000 : HWord) = (0xF : BitVec 4) ++ (0 : Block) := by decide
  rw [h, hword, hword, BitVec.and_append]
  congr 1
  · revert digit
    decide
  · exact BitVec.and_zero

theorem rddin : Statement .rddin := fun _ => by decide
theorem rddout : Statement .rddout := fun _ => by decide
theorem rdkey : Statement .rdkey := fun _ => by decide
theorem rdmode : Statement .rdmode := fun _ => by decide
theorem rdksk (i : BitVec 5) : Statement (.rdksk i) := fun _ => ksRead_selects 0x5 i
theorem rdksc (i : BitVec 5) : Statement (.rdksc i) := fun _ => ksRead_selects 0x6 i
theorem rdksd (i : BitVec 5) : Statement (.rdksd i) := fun _ => ksRead_selects 0x7 i
theorem wrdin (v : Block) : Statement (.wrdin v) := fun _ => write_selects 0x8 v
theorem wrkey (v : Block) : Statement (.wrkey v) := fun _ => write_selects 0xA v
theorem dec : Statement .dec := fun _ => by decide
theorem enc : Statement .enc := fun _ => by decide
theorem genkey : Statement .genkey := fun _ => by decide
theorem done : Statement .done := fun _ => by decide
theorem keysched : Statement .keysched := fun _ => by decide

end Sys2Proof.Laws.EncodesRow
end

