-- ==== Sys2Proof/Laws/Step.lean ====
section
/-! SUPPORT. Laws/Step.lean: what one step of the machine can be, said once: a block step, a host step or a reset (R150). -/

namespace Sys2Proof.Machine

/-- No turn to come: the block agent's step (log 3). -/
theorem step_noTurn {s : State} (hr : s.refusal = none) (h : s.turns = []) : step s = blockStep s := by
  simp [step, nextTurn, hr, h]

/-- The block agent's turn. -/
theorem step_block {s : State} {rest : List Turn} (hr : s.refusal = none) (h : s.turns = .block :: rest) :
    step s = blockStep (s.withTurns rest) := by
  simp [step, nextTurn, hr, h, takeTurn]

/-- The host's turn. -/
theorem step_host {s : State} {w : HWord} {rest : List Turn} (hr : s.refusal = none) (h : s.turns = .host w :: rest) :
    step s = markRefusal (s.withTurns rest) (hostStep w (s.withTurns rest)) := by
  simp [step, nextTurn, hr, h, takeTurn]

/-- A reset, of a refused core or not. -/
theorem step_reset {s : State} {data : ResetData} {rest : List Turn} (h : s.turns = .reset data :: rest) :
    step s = .next (takeReset data (s.withTurns rest)) := by
  cases hr : s.refusal <;> simp [step, nextTurn, hr, h, takeTurn, takeTurnRefused]

/-- Any other step of a refused core: the mark stays, the turn is taken, nothing else is known (R172). -/
theorem step_refused {s : State} {x : Refusal} (hr : s.refusal = some x) (h : ∀ data rest, s.turns ≠ .reset data :: rest) :
    step s = .next ((s.withTurns s.turns.tail).lose x) := by
  match ht : s.turns with
  | [] => simp [step, nextTurn, hr, ht, State.lose, State.withTurns]
  | .host w :: rest => simp [step, nextTurn, hr, ht, takeTurnRefused]
  | .block :: rest => simp [step, nextTurn, hr, ht, takeTurnRefused]
  | .reset data :: rest => exact absurd ht (h data rest)

/-- A host word that decodes is performed by `exec`; one that does not is refused. -/
theorem hostStep_ok {w : HWord} {i : Instr} (h : decode w = .ok i) (s : State) : hostStep w s = exec i s := by
  simp [hostStep, h]

theorem hostStep_error {w : HWord} {r : WordRefusal} (h : decode w = .error r) (s : State) :
    hostStep w s = .refused (refusalOfWord r) := by
  simp [hostStep, h]

/-- Inversion of the mark: the transaction was performed, or it was refused and the core is lost. -/
theorem markRefusal_next {s t : State} {o : Out} (h : markRefusal s o = .next t) :
    o = .next t ∨ ∃ x, o = .refused x ∧ t = s.lose x := by
  cases o with
  | next u => exact .inl h
  | fault f => cases h
  | refused x => exact .inr ⟨x, rfl, (Host.Outcome.next.inj h).symm⟩

theorem markRefusal_not_refused (s : State) (o : Out) (x : Refusal) : markRefusal s o ≠ .refused x := by
  cases o <;> simp [markRefusal]

/-- Inversion of a step, everything it can be (R150, R172, R190). -/
theorem step_cases (s : State) :
    (s.refusal = none ∧ s.turns = [] ∧ step s = blockStep s) ∨
    (s.refusal = none ∧ ∃ rest, s.turns = .block :: rest ∧ step s = blockStep (s.withTurns rest)) ∨
    (s.refusal = none ∧ ∃ w rest i, s.turns = .host w :: rest ∧ decode w = .ok i ∧
      step s = markRefusal (s.withTurns rest) (exec i (s.withTurns rest))) ∨
    (s.refusal = none ∧ ∃ w rest e, s.turns = .host w :: rest ∧ decode w = .error e ∧
      step s = .next ((s.withTurns rest).lose (refusalOfWord e))) ∨
    (∃ data rest, s.turns = .reset data :: rest ∧ step s = .next (takeReset data (s.withTurns rest))) ∨
    (∃ x, s.refusal = some x ∧ (∀ data rest, s.turns ≠ .reset data :: rest) ∧
      step s = .next ((s.withTurns s.turns.tail).lose x)) := by
  match ht : s.turns, hr : s.refusal with
  | .reset data :: rest, _ => exact .inr (.inr (.inr (.inr (.inl ⟨data, rest, rfl, step_reset ht⟩))))
  | [], none => exact .inl ⟨rfl, rfl, step_noTurn hr ht⟩
  | .block :: rest, none => exact .inr (.inl ⟨rfl, rest, rfl, step_block hr ht⟩)
  | .host w :: rest, none =>
    match hd : decode w with
    | .ok i => exact .inr (.inr (.inl ⟨rfl, w, rest, i, rfl, hd, by rw [step_host hr ht, hostStep_ok hd]⟩))
    | .error e =>
      exact .inr (.inr (.inr (.inl ⟨rfl, w, rest, e, rfl, hd, by rw [step_host hr ht, hostStep_error hd]; rfl⟩)))
  | [], some x | .block :: rest, some x | .host w :: rest, some x =>
    refine .inr (.inr (.inr (.inr (.inr ⟨x, rfl, by simp, ?_⟩))))
    rw [step_refused hr (by simp [ht]), ht]

/-- A step that is no reset and does not end refused is a block step or a host transaction performed, of a core that was
not refused. -/
theorem step_cases_of_not_refused {s t : State} (h : step s = .next t)
    (hn : ∀ data rest, s.turns ≠ .reset data :: rest) (ht : t.refusal = none) :
    (s.refusal = none ∧ s.turns = [] ∧ blockStep s = .next t) ∨
    (s.refusal = none ∧ ∃ rest, s.turns = .block :: rest ∧ blockStep (s.withTurns rest) = .next t) ∨
    (s.refusal = none ∧ ∃ w rest i, s.turns = .host w :: rest ∧ decode w = .ok i ∧
      exec i (s.withTurns rest) = .next t) := by
  rcases step_cases s with ⟨hr, h0, e⟩ | ⟨hr, rest, h0, e⟩ | ⟨hr, w, rest, i, h0, hd, e⟩ | ⟨hr, w, rest, x, h0, hd, e⟩ |
    ⟨data, rest, h0, e⟩ | ⟨x, hr, _, e⟩ <;> rw [e] at h
  · exact .inl ⟨hr, h0, h⟩
  · exact .inr (.inl ⟨hr, rest, h0, h⟩)
  · rcases markRefusal_next h with h | ⟨x, _, rfl⟩
    · exact .inr (.inr ⟨hr, w, rest, i, h0, hd, h⟩)
    · cases ht
  · cases h
    cases ht
  · exact absurd h0 (hn data rest)
  · cases h
    cases ht

end Sys2Proof.Machine
end

