-- ==== Sys2Proof/Laws/Run.lean ====
section
/-! SUPPORT. Laws/Run.lean: runs of several steps and of several block steps, one at a time, from either end. -/

namespace Sys2Proof.Machine

@[simp] theorem run_zero (s : State) : run 0 s = .next s := rfl

/-- A run of one step more, taken apart at its first step. -/
theorem run_succ (n : Nat) (s : State) :
    run (n + 1) s = match step s with
      | .next t => run n t
      | .fault f => .fault f
      | .refused r => .refused r := by
  have hs : Sys2Proof.core.step s = step s := rfl
  simp only [run, Host.Core.run]
  cases h : step s <;> rw [h] at hs <;> simp only [hs] <;> rfl

theorem run_succ_of_next {n : Nat} {s t : State} (h : step s = .next t) : run (n + 1) s = run n t := by
  rw [run_succ, h]

/-- Inversion: a run that goes on took a first step that went on. -/
theorem run_succ_next {n : Nat} {s u : State} (h : run (n + 1) s = .next u) :
    ∃ t, step s = .next t ∧ run n t = .next u := by
  rw [run_succ] at h
  cases hs : step s with
  | next t => exact ⟨t, rfl, by rwa [hs] at h⟩
  | fault f => rw [hs] at h; cases h
  | refused r => rw [hs] at h; cases h

/-- A run of one step more, put together at its last step. -/
theorem run_snoc {n : Nat} {s t u : State} (h : run n s = .next t) (hs : step t = .next u) :
    run (n + 1) s = .next u := by
  induction n generalizing s with
  | zero =>
    cases h
    rw [run_succ_of_next hs, run_zero]
  | succ n ih =>
    obtain ⟨v, hv, hr⟩ := run_succ_next h
    rw [run_succ_of_next hv]
    exact ih hr

/-- Inversion: a run of one step more, taken apart at its last step. -/
theorem run_snoc_next {n : Nat} {s u : State} (h : run (n + 1) s = .next u) :
    ∃ t, run n s = .next t ∧ step t = .next u := by
  induction n generalizing s with
  | zero =>
    obtain ⟨t, hs, hr⟩ := run_succ_next h
    rw [run_zero] at hr
    exact ⟨s, rfl, by rw [hs, hr]⟩
  | succ n ih =>
    obtain ⟨v, hv, hr⟩ := run_succ_next h
    obtain ⟨t, ht, hu⟩ := ih hr
    exact ⟨t, by rw [run_succ_of_next hv, ht], hu⟩

@[simp] theorem blockRun_zero (s : State) : blockRun 0 s = .next s := rfl

theorem blockRun_succ_of_next {n : Nat} {s t : State} (h : blockStep s = .next t) :
    blockRun (n + 1) s = blockRun n t := by
  rw [blockRun, h]

/-- Inversion: block steps that go on took a first one that went on. -/
theorem blockRun_succ_next {n : Nat} {s u : State} (h : blockRun (n + 1) s = .next u) :
    ∃ t, blockStep s = .next t ∧ blockRun n t = .next u := by
  rw [blockRun] at h
  cases hs : blockStep s with
  | next t => exact ⟨t, rfl, by rwa [hs] at h⟩
  | fault f => rw [hs] at h; cases h
  | refused r => rw [hs] at h; cases h

/-- One block step more, put together at the last one. -/
theorem blockRun_snoc {n : Nat} {s t u : State} (h : blockRun n s = .next t) (hs : blockStep t = .next u) :
    blockRun (n + 1) s = .next u := by
  induction n generalizing s with
  | zero =>
    cases h
    rw [blockRun_succ_of_next hs, blockRun_zero]
  | succ n ih =>
    obtain ⟨v, hv, hr⟩ := blockRun_succ_next h
    rw [blockRun_succ_of_next hv]
    exact ih hr

end Sys2Proof.Machine
end

