-- ==== Sys2Proof/Machine/Script.lean ====
section
/-! DEFINITION. Machine/Script.lean: the host's scripts: one transaction a line, the pseudo-transactions and their expansion,
the source's operations as scripts (30_encoding.md R62 to R64), and a host that performs a script. -/

namespace Sys2Proof.Machine

/-- A line that is one transaction (R62). A code or an index is whatever number the line has: the word may be refused. -/
inductive PlainLine where
  | wrdin (v : Block)
  | wrkey (v : Block)
  | wrmode (code : Block)
  | rddin
  | rddout
  | rdkey
  | rdmode
  | rdksk (i : Block)
  | rdksc (i : Block)
  | rdksd (i : Block)
deriving DecidableEq, Repr

/-- The H word of a line (R62). -/
def PlainLine.word : PlainLine → HWord
  | .wrdin v => hword 0x8 v
  | .wrkey v => hword 0xA v
  | .wrmode code => hword 0xB code
  | .rddin => hword 0x0 0
  | .rddout => hword 0x1 0
  | .rdkey => hword 0x2 0
  | .rdmode => hword 0x3 0
  | .rdksk i => hword 0x5 i
  | .rdksc i => hword 0x6 i
  | .rdksd i => hword 0x7 i

/-- A line of a script: a transaction or a pseudo-transaction (R62, R63). -/
inductive ScriptLine where
  | plain (l : PlainLine)
  | cmdDec
  | cmdEnc
  | cmdGenkey
  | cmdKeysched
  | nop
  | wait
  | setkey (v : Block)
  | encrypt (v : Block)
  | decrypt (v : Block)
deriving DecidableEq, Repr

/-- What a host does: one transaction, or `RDMODE` again and again until it answers 3 (the `WAIT` of R63). -/
inductive HostAction where
  | transact (l : PlainLine)
  | poll
deriving DecidableEq, Repr

/-- The expansion of a line (R63). -/
def ScriptLine.expand : ScriptLine → List HostAction
  | .plain l => [.transact l]
  | .cmdDec => [.transact (.wrmode 0)]
  | .cmdEnc => [.transact (.wrmode 1)]
  | .cmdGenkey => [.transact (.wrmode 2)]
  | .cmdKeysched => [.transact (.wrmode 4)]
  | .nop => [.transact (.wrmode 3)]
  | .wait => [.poll]
  | .setkey v => [.transact (.wrkey v), .transact (.wrmode 4), .poll]
  | .encrypt v => [.transact (.wrdin v), .transact (.wrmode 1), .poll, .transact .rddout]
  | .decrypt v => [.transact (.wrdin v), .transact (.wrmode 0), .poll, .transact .rddout]

/-- `generateKey() -> Key` of the source (R64). -/
def scriptGenerateKey : List ScriptLine := [.cmdGenkey, .wait, .plain .rdkey]

/-- `generateSubKeys(key) -> KeySchedule` of the source, the schedule left in `KS` (R64). -/
def scriptGenerateSubKeys (key : Block) : List ScriptLine := [.setkey key]

/-- `encryptBlock(block, schedule)` of the source, with the schedule in `KS` (R64). -/
def scriptEncryptBlock (b : Block) : List ScriptLine := [.encrypt b]

/-- `decryptBlock(block, schedule)` of the source, with the schedule in `KS` (R64). -/
def scriptDecryptBlock (b : Block) : List ScriptLine := [.decrypt b]

/-- The H word an action issues. -/
def HostAction.word : HostAction → HWord
  | .transact l => l.word
  | .poll => PlainLine.rdmode.word

/-- The H words of a script, each `WAIT` shown by the one `RDMODE` that answers 3 (95_test_vectors.md section 8). -/
def scriptWords (ls : List ScriptLine) : List HWord := (ls.flatMap ScriptLine.expand).map HostAction.word

/-- The action is to be repeated: a poll that was not answered 3 (R63). -/
def HostAction.again (a : HostAction) (s : State) : Bool := a == .poll && s.rdata != some 3

/-- The outcome's state goes on to `f`; a stop is the outcome. -/
def andThen (o : Out) (f : State → Out) : Out :=
  match o with
  | .next s => f s
  | .fault e => .fault e
  | .refused r => .refused r

/-- A host performs the actions. `gaps` says how many block steps come before each of its transactions, one interleaving of
the agents (R41; `Latency` of R3); the run ends with the actions or with the list. -/
def performActions : List Nat → List HostAction → State → Out
  | [], _, s => .next s
  | _ :: _, [], s => .next s
  | gap :: gaps, a :: rest, s =>
    andThen (blockRun gap s) fun t =>
      andThen (hostStep a.word t) fun u =>
        if a.again u then performActions gaps (a :: rest) u else performActions gaps rest u

/-- A host performs a script. A refused transaction ends it, and on a refused core it has no meaning (R172): a script has
no line for reset. -/
def performScript (gaps : List Nat) (ls : List ScriptLine) (s : State) : Out :=
  match s.refusal with
  | none => performActions gaps (ls.flatMap ScriptLine.expand) s
  | some r => .refused r

end Sys2Proof.Machine
end

