-- ==== Sys2Proof/Laws/Script.lean ====
section
/-! SUPPORT. Laws/Script.lean: what performing a script can do, said once, and the words of its lines. -/

namespace Sys2Proof.Machine

theorem andThen_next {o : Out} {f : State → Out} {t : State} (h : andThen o f = .next t) :
    ∃ s, o = .next s ∧ f s = .next t := by
  cases o with
  | next s => exact ⟨s, rfl, h⟩
  | fault e => cases h
  | refused r => cases h

/-- Inversion: the first transaction of a script that goes on was performed, after the block steps before it. -/
theorem performActions_next {gap : Nat} {gaps : List Nat} {a : HostAction} {rest : List HostAction} {s v : State}
    (h : performActions (gap :: gaps) (a :: rest) s = .next v) :
    ∃ t u, blockRun gap s = .next t ∧ hostStep a.word t = .next u ∧
      (if a.again u then performActions gaps (a :: rest) u else performActions gaps rest u) = .next v := by
  obtain ⟨t, ht, h1⟩ := andThen_next h
  obtain ⟨u, hu, h2⟩ := andThen_next h1
  exact ⟨t, u, ht, hu, h2⟩

/-- A transaction is issued once: only a poll is repeated. -/
theorem transact_not_again (l : PlainLine) (s : State) : (HostAction.transact l).again s = false := by
  simp [HostAction.again]

theorem wrdin_word (v : Block) : (PlainLine.wrdin v).word = encode (.wrdin v) := rfl
theorem wrkey_word (v : Block) : (PlainLine.wrkey v).word = encode (.wrkey v) := rfl
theorem rdksk_word (i : BitVec 5) : (PlainLine.rdksk (i.setWidth 64)).word = encode (.rdksk i) := rfl
theorem rdksc_word (i : BitVec 5) : (PlainLine.rdksc (i.setWidth 64)).word = encode (.rdksc i) := rfl
theorem rdksd_word (i : BitVec 5) : (PlainLine.rdksd (i.setWidth 64)).word = encode (.rdksd i) := rfl

end Sys2Proof.Machine
end

