-- ==== Sys2Proof/Tests/Slice0.lean ====
section
/-! SUPPORT. Tests/Slice0.lean: checks of this model against numbers the spec prints, and one witness for the hypotheses of
each statement that has some. Expected values are those of 95_test_vectors.md and of the rules' own examples. -/

namespace Sys2Proof.Tests

open Sys2Proof Sys2Proof.Machine

/-! ### WellFormed: an ill-formed term for each check, which the check refuses -/

theorem test_wf_rdksk_17 : (Instr.rdksk 17).wf = false := by decide
theorem test_wf_rdksc_17 : (Instr.rdksc 17).wf = false := by decide
theorem test_wf_rdksd_31 : (Instr.rdksd 31).wf = false := by decide
theorem test_wf_rdksk_16 : (Instr.rdksk 16).wf = true := by decide

/-! ### Decoding: words written out from the spec's encodings (30_encoding.md R52, R62; 95_test_vectors.md section 7) -/

theorem test_decode_rddin : decode 0x00000000000000000 = .ok .rddin := by decide
theorem test_decode_rddout : decode 0x10000000000000000 = .ok .rddout := by decide
theorem test_decode_rdkey : decode 0x20000000000000000 = .ok .rdkey := by decide
theorem test_decode_rdmode : decode 0x30000000000000000 = .ok .rdmode := by decide
theorem test_decode_rdksk : decode 0x50000000000000010 = .ok (.rdksk 16) := by decide
theorem test_decode_rdksc : decode 0x60000000000000001 = .ok (.rdksc 1) := by decide
theorem test_decode_rdksd : decode 0x70000000000000010 = .ok (.rdksd 16) := by decide
theorem test_decode_wrdin : decode 0x80123456789ABCDEF = .ok (.wrdin 0x0123456789ABCDEF) := by decide
theorem test_decode_wrkey : decode 0xA133457799BBCDFF1 = .ok (.wrkey 0x133457799BBCDFF1) := by decide
theorem test_decode_dec : decode 0xB0000000000000000 = .ok .dec := by decide
theorem test_decode_enc : decode 0xB0000000000000001 = .ok .enc := by decide
theorem test_decode_genkey : decode 0xB0000000000000002 = .ok .genkey := by decide
theorem test_decode_done : decode 0xB0000000000000003 = .ok .done := by decide
theorem test_decode_keysched : decode 0xB0000000000000004 = .ok .keysched := by decide

/-- Bit by bit: `WE` in bit 67, `SEL` in bits 66:64, `CODE` in bits 2:0 (R51, R52). -/
theorem test_decode_enc_bits :
    decode ((0b1 : BitVec 1) ++ (0b011 : BitVec 3) ++ (0 : BitVec 61) ++ (0b001 : BitVec 3)) = .ok .enc := by decide

theorem test_refuse_reserved_select :
    decode 0x40000000000000000 = .error .reservedSelect ∧ decode 0xC0000000000000000 = .error .reservedSelect := by decide
theorem test_refuse_read_only :
    decode 0x90000000000000000 = .error .readOnlyWrite ∧ decode 0xD0000000000000000 = .error .readOnlyWrite ∧
    decode 0xE0000000000000000 = .error .readOnlyWrite ∧ decode 0xF0000000000000000 = .error .readOnlyWrite := by decide
theorem test_refuse_nonzero :
    decode 0x00000000000000001 = .error .nonZeroReserved ∧ decode 0x50000000000000020 = .error .nonZeroReserved ∧
    decode 0xB0000000000000008 = .error .nonZeroReserved := by decide
theorem test_refuse_index : decode 0x50000000000000011 = .error .indexOutOfRange := by decide
theorem test_refuse_command :
    decode 0xB0000000000000005 = .error .reservedCommand ∧ decode 0xB0000000000000006 = .error .reservedCommand ∧
    decode 0xB0000000000000007 = .error .reservedCommand := by decide
theorem test_encode_wrdin : encode (.wrdin 0x85E813540F0AB405) = 0x885E813540F0AB405 := by decide
theorem test_encode_rdksk : encode (.rdksk 1) = 0x50000000000000001 := by decide
theorem test_table_word : decodeTableWord 72 0xB0000000000000004 = some .keysched := by decide
theorem test_table_word_too_long : decodeTableWord 72 0x100000000000000000 = none := by decide

/-! ### The tables and the functions (40_bitperm.md R80; 95_test_vectors.md sections 3 to 6) -/

theorem test_tables_valid :
    tableValid 64 tableIP = true ∧ tableValid 64 tableFP = true ∧ tableValid 64 tablePC1 = true ∧
    tableValid 56 tablePC2 = true ∧ tableValid 32 tableE = true ∧ tableValid 32 tableP = true := by decide
theorem test_table_lengths :
    tableIP.length = 64 ∧ tableFP.length = 64 ∧ tablePC1.length = 56 ∧ tablePC2.length = 48 ∧ tableE.length = 48 ∧
    tableP.length = 32 ∧ tableShift.length = 17 ∧ ∀ g ∈ List.range 8, (tableS g).length = 64 := by decide
/-- R91: the running sums of the shift schedule. -/
theorem test_shift_sums : (List.range 17).map (fun i => (tableShift.take (i + 1)).sum) =
    [0, 1, 2, 4, 6, 8, 10, 12, 14, 15, 17, 19, 21, 23, 25, 27, 28] := by decide
theorem test_ip : initialPerm 0x0123456789ABCDEF = 0xCC00CCFFF0AAF0AA ∧ initialPerm 1 = 0x0000008000000000 := by
  decide +kernel
theorem test_fp : finalPerm 0x0A4CD99543423234 = 0x85E813540F0AB405 ∧ finalPerm 0x0123456789ABCDEF = 0xFF330FAA00330FAA := by
  decide +kernel
theorem test_pc1 : pc1 0x133457799BBCDFF1 = 0xF0CCAAF556678F ∧ pc1 0x0101010101010101 = 0 := by decide +kernel
theorem test_pc2 : subkeyOf 0xE19955F 0xAACCF1E = 0x1B02EFFC7072 ∧ subkeyOf 0x0080000 0 = 0 := by decide +kernel
theorem test_e : perm 48 tableE (0xF0AAF0AA : Half) = 0x7A15557A1555 ∧ perm 48 tableE (1 : Half) = 0x800000000002 := by
  decide +kernel
theorem test_p : perm 32 tableP (0x5C82B597 : Half) = 0x234AA9BB ∧ perm 32 tableP (0x12345678 : Half) = 0x6E34140E := by
  decide +kernel
/-- R81 on the example of R70. -/
theorem test_perm_bytes : permBytes tableIP [0x01, 0x23, 0x45, 0x67, 0x89, 0xAB, 0xCD, 0xEF] =
    [0xCC, 0x00, 0xCC, 0xFF, 0xF0, 0xAA, 0xF0, 0xAA] := by decide +kernel
theorem test_rotl : rotl28 0xF0CCAAF 1 = 0xE19955F ∧ rotl28 0x8000000 1 = 1 ∧ rotl28 0x8000000 2 = 2 ∧
    rotl28 0x4000000 2 = 1 ∧ rotl28 0xC000000 2 = 3 ∧ rotl28 1 1 = 2 := by decide
/-- R121: the spot values of the eight boxes. -/
theorem test_sbox_spots :
    (List.range 8).map (sbox · 0b000000) = [14, 15, 10, 7, 2, 12, 4, 13] ∧
    (List.range 8).map (sbox · 0b000001) = [0, 3, 13, 13, 14, 10, 13, 1] ∧
    (List.range 8).map (sbox · 0b000010) = [4, 1, 0, 13, 12, 1, 11, 2] ∧
    (List.range 8).map (sbox · 0b100000) = [4, 0, 13, 10, 4, 9, 1, 7] ∧
    (List.range 8).map (sbox · 0b100001) = [15, 13, 1, 3, 11, 4, 6, 2] ∧
    (List.range 8).map (sbox · 0b111111) = [13, 9, 12, 14, 3, 13, 12, 11] ∧ sbox 0 0b011011 = 5 := by decide
theorem test_f : roundF 0xF0AAF0AA 0x1B02EFFC7072 = 0x234AA9BB ∧ roundF 0 0 = 0xD8D8DBBC ∧
    roundF 0xFFFFFFFF 0 = 0x38DBF9CB := by decide +kernel
/-- R110, corner cases: `F` is not injective in the half. -/
theorem test_f_not_injective :
    (0xB28FB1B8 : Half) ≠ 0xABEFB1B8 ∧ roundF 0xB28FB1B8 0 = roundF 0xABEFB1B8 0 := by decide +kernel
/-- 95_test_vectors.md 3.1, rows 0, 1, 9 and 16, and 3.3, key `8000000000000000`. -/
theorem test_schedule :
    keySetAt 0x133457799BBCDFF1 0 = ⟨0, 0xF0CCAAF, 0x556678F⟩ ∧
    keySetAt 0x133457799BBCDFF1 1 = ⟨0x1B02EFFC7072, 0xE19955F, 0xAACCF1E⟩ ∧
    keySetAt 0x133457799BBCDFF1 9 = ⟨0xE0DBEBEDE781, 0x557F866, 0x3C7AAB3⟩ ∧
    keySetAt 0x133457799BBCDFF1 16 = ⟨0xCB3D8B0E17F5, 0xF0CCAAF, 0x556678F⟩ ∧
    (keySetAt 0x8000000000000000 1).k = 0x000010000000 ∧ (keySetAt 0x8000000000000000 8).k = 0 := by decide +kernel
/-- 95_test_vectors.md 4.1: the halves after rounds 1 and 16. -/
theorem test_round_trace :
    feistelState 0x0123456789ABCDEF (keyschedFn 0x133457799BBCDFF1) .encrypt 1 = (0xF0AAF0AA, 0xEF4A6544) ∧
    feistelState 0x0123456789ABCDEF (keyschedFn 0x133457799BBCDFF1) .encrypt 16 = (0x43423234, 0x0A4CD995) := by
  decide +kernel
/-- 95_test_vectors.md section 6, first row: the known answer, and both directions. -/
theorem test_known_answer :
    process 0x0123456789ABCDEF (keyschedFn 0x133457799BBCDFF1) .encrypt = 0x85E813540F0AB405 ∧
    process 0x85E813540F0AB405 (keyschedFn 0x133457799BBCDFF1) .decrypt = 0x0123456789ABCDEF ∧
    process 0x0123456789ABCDEF (keyschedFn 0x133457799BBCDFF1) .decrypt = 0xEE0F7C12E0B09338 := by decide +kernel
/-- Section 6, the row of key `0E329232EA6D0D73`. -/
theorem test_known_answer_zero :
    process 0x8787878787878787 (keyschedFn 0x0E329232EA6D0D73) .encrypt = 0 := by decide +kernel

/-! ### One step on a small state -/

/-- Data for a small state: every register zero. -/
def zeroData : ResetData := ⟨0, 0, 0, Vector.replicate 17 ⟨0, 0, 0⟩, 0, 0, 0, 0⟩

/-- The small state: `MODE = m`, `RND = n`, `ts` to come, all data zero. -/
def st (m : BitVec 3) (n : BitVec 5) (ts : List Turn) : State :=
  { State.resetWith zeroData with mode := m, rnd := n, turns := ts }

/-- The next state of an outcome, for comparing. -/
def nextOf : Out → Option State
  | .next s => some s
  | .fault _ => none
  | .refused _ => none

/-- The refusal of an outcome, for comparing. -/
def refusalOf : Out → Option Refusal
  | .next _ => none
  | .fault _ => none
  | .refused r => some r

theorem nextOf_eq {o : Out} {t : State} (h : nextOf o = some t) : o = .next t := by
  cases o <;> simp_all [nextOf]

/-- The refused mark an outcome leaves, for comparing. -/
def markOf (o : Out) : Option Refusal := (nextOf o).bind State.refusal

/-- What the outcome answers to a read. -/
def answerOf (o : Out) : Option Block := (nextOf o).bind State.rdata

/-- The small state with `KEY`, `DIN`, `DOUT` and entry 16 of `KS` told apart. -/
def marked (m : BitVec 3) : State :=
  { st m 0 [] with
    key := 0xFEDCBA9876543210, din := 5, dout := 0x85E813540F0AB405
    ks := (Vector.replicate 17 (⟨0, 0, 0⟩ : KeySet)).set 16 ⟨0xCB3D8B0E17F5, 0xF0CCAAF, 0x556678F⟩ }

theorem test_rddin : answerOf (exec .rddin (marked 3)) = some 5 := by decide
theorem test_rddout_busy : answerOf (exec .rddout (marked 1)) = some 0x85E813540F0AB405 := by decide
theorem test_rdkey : answerOf (exec .rdkey (marked 4)) = some 0xFEDCBA9876543210 := by decide
theorem test_rdmode : answerOf (exec .rdmode (marked 4)) = some 4 := by decide
theorem test_rdksk : answerOf (exec (.rdksk 16) (marked 1)) = some 0x0000CB3D8B0E17F5 := by decide
theorem test_rdksk_busy : refusalOf (exec (.rdksk 1) (marked 4)) = some .busyScheduleRead := by decide
/-- R160, R161: the 28-bit value stands in bits 31:4. -/
theorem test_rdksc : answerOf (exec (.rdksc 16) (marked 3)) = some 0x00000000F0CCAAF0 := by decide
theorem test_rdksd : answerOf (exec (.rdksd 16) (marked 3)) = some 0x00000000556678F0 := by decide
theorem test_wrdin : (nextOf (exec (.wrdin 7) (marked 3))).map (fun t => (t.din, t.key)) = some (7, 0xFEDCBA9876543210) := by
  decide
theorem test_wrdin_busy : refusalOf (exec (.wrdin 1) (marked 1)) = some .busyWrite := by decide
theorem test_wrkey : (nextOf (exec (.wrkey 0x0101010101010101) (marked 3))).map (fun t => (t.key, t.mode)) =
    some (0x0101010101010101, 3) := by decide
theorem test_wrkey_busy : refusalOf (exec (.wrkey 1) (marked 1)) = some .busyWrite := by decide
theorem test_dec : (nextOf (exec .dec (marked 3))).map (fun t => (t.mode, t.rnd, t.dout)) =
    some (0, 0, 0x85E813540F0AB405) := by decide
theorem test_enc : (nextOf (exec .enc (marked 3))).map (fun t => (t.mode, t.rnd)) = some (1, 0) := by decide
theorem test_enc_busy : refusalOf (exec .enc (marked 1)) = some .busyWrite := by decide
theorem test_genkey : (nextOf (exec .genkey (marked 3))).map (fun t => (t.mode, t.key)) = some (2, 0xFEDCBA9876543210) := by
  decide
theorem test_done : (nextOf (exec .done (marked 3))).map State.mode = some 3 := by decide
theorem test_done_busy : refusalOf (exec .done (marked 4)) = some .busyWrite := by decide
theorem test_keysched : (nextOf (exec .keysched (marked 3))).map (fun t => (t.mode, t.ks == (marked 3).ks)) =
    some (4, true) := by decide

/-- 95_test_vectors.md 4.1: the Init step, the sixteenth Round step and the Final step. -/
theorem test_init_step :
    (nextOf (blockStep { st 1 0 [] with din := 0x0123456789ABCDEF })).map (fun t => (t.l, t.r, t.rnd)) =
      some (0xCC00CCFF, 0xF0AAF0AA, 1) := by decide +kernel
theorem test_round_step :
    (nextOf (blockStep { st 1 16 [] with
      l := 0xC28C960D, r := 0x43423234, ks := keyschedFn 0x133457799BBCDFF1 })).map (fun t => (t.l, t.r, t.rnd)) =
      some (0x43423234, 0x0A4CD995, 17) := by decide +kernel
theorem test_final_step :
    (nextOf (blockStep { st 1 17 [] with l := 0x43423234, r := 0x0A4CD995 })).map (fun t => (t.dout, t.mode, t.rnd)) =
      some (0x85E813540F0AB405, 3, 0) := by decide +kernel
/-- 4.2: the first Round step of the decryption reads entry 16. -/
theorem test_round_step_dec :
    (nextOf (blockStep { st 0 1 [] with
      l := 0x0A4CD995, r := 0x43423234, ks := keyschedFn 0x133457799BBCDFF1 })).map (fun t => (t.l, t.r, t.rnd)) =
      some (0x43423234, 0xC28C960D, 2) := by decide +kernel
/-- 3.1: the KS-Init step and the sixteenth KS-Round step. -/
theorem test_ks_init :
    (nextOf (blockStep { st 4 0 [] with key := 0x133457799BBCDFF1 })).map (fun t => (t.c, t.d, ksRead t.ks 0, t.rnd)) =
      some (0xF0CCAAF, 0x556678F, ⟨0, 0xF0CCAAF, 0x556678F⟩, 1) := by decide +kernel
theorem test_ks_last :
    (nextOf (blockStep { st 4 16 [] with c := 0xF866557, d := 0xAAB33C7 })).map (fun t => (ksRead t.ks 16, t.mode, t.rnd)) =
      some (⟨0xCB3D8B0E17F5, 0xF0CCAAF, 0x556678F⟩, 3, 0) := by decide +kernel
/-- R152: the GENKEY step ends the operation; what it stores no test can name. -/
theorem test_genkey_step :
    (nextOf (blockStep (st 2 0 []))).map (fun t => (t.mode, t.draws, t.dout)) = some (3, 1, 0) := by decide
/-- R190, R23: the first step after reset runs the word placed. -/
theorem test_first_step :
    (nextOf (step (State.reset.withFetchWord 72 0xA133457799BBCDFF1))).map (fun t => (t.key, t.mode, t.rnd)) =
      some (0x133457799BBCDFF1, 3, 0) := by decide
theorem test_reset_turn :
    (nextOf (step (st 4 9 [.reset zeroData, .block]))).map (fun t => (t.mode, t.rnd, t.turns)) =
      some (3, 0, [.block]) := by decide

/-- R172, R178, R190: a refused transaction, what comes after it, a reset, and a host read of `MODE` after that. -/
theorem test_refused_then_reset :
    markOf (step (st 3 0 [.host 0x40000000000000000, .block, .reset zeroData, .host 0x30000000000000000])) =
      some .reservedSelect ∧
    markOf (run 2 (st 3 0 [.host 0x40000000000000000, .block, .reset zeroData, .host 0x30000000000000000])) =
      some .reservedSelect ∧
    (nextOf (run 4 (st 3 0 [.host 0x40000000000000000, .block, .reset zeroData, .host 0x30000000000000000]))).map
      (fun t => (t.refusal, t.rdata, t.mode)) = some (none, some 3, 3) := by decide

/-- 95_test_vectors.md section 8, program 4, lines 1 and 3: the words of SETKEY and ENCRYPT. -/
theorem test_script_words :
    scriptWords [.setkey 0x133457799BBCDFF1, .encrypt 0x0123456789ABCDEF] =
      [0xA133457799BBCDFF1, 0xB0000000000000004, 0x30000000000000000, 0x80123456789ABCDEF, 0xB0000000000000001,
        0x30000000000000000, 0x10000000000000000] := by decide
/-- Section 8, program 5, when the block agent has not moved: the third line is refused. -/
theorem test_script_refused :
    refusalOf (performScript [0, 0, 0] [.plain (.wrdin 0), .cmdEnc, .plain (.wrdin 1)] (st 3 0 [])) = some .busyWrite := by
  decide
/-- R142: the instance of the avalanche rule, 37 bits of 64. -/
theorem test_avalanche :
    process 0x0123456789ABCDEE (keyschedFn 0x133457799BBCDFF1) .encrypt = 0x28378E295BE22A84 ∧
    ((List.range 64).filter fun i => ((0x85E813540F0AB405 ^^^ 0x28378E295BE22A84 : Block)).getLsbD i).length = 37 := by
  decide +kernel

/-! ### Witnesses: for each statement with hypotheses, concrete values that meet them, at the ends of their ranges -/

theorem witness_DecodeInvertsEncode : (Instr.rdksk 16).wf = true ∧ (Instr.wrdin 0xFFFFFFFFFFFFFFFF).wf = true := by decide
theorem witness_EncodeInvertsDecode : decode 0x70000000000000010 = .ok (.rdksd 16) := by decide
theorem witness_RefusedWordsExactly :
    (∃ e, decode 0x60000000000000011 = .error e) ∧
      (st 3 0 [.host 0x60000000000000011]).turns = .host 0x60000000000000011 :: [] ∧
      (st 3 0 [.host 0x60000000000000011]).refusal = none :=
  ⟨⟨.indexOutOfRange, by decide⟩, rfl, rfl⟩

/-- Each of the seven reasons has a word and a state (R172). -/
theorem witness_RefusalReasonsInOrder :
    (st 1 0 [.host 0xC0000000000000000]).refusal = none ∧
    markOf (step (st 1 0 [.host 0xC0000000000000000])) = some .reservedSelect ∧
    markOf (step (st 1 0 [.host 0x9FFFFFFFFFFFFFFFF])) = some .readOnlyWrite ∧
    markOf (step (st 4 0 [.host 0x70000000000000020])) = some .nonZeroReserved ∧
    markOf (step (st 4 0 [.host 0x5000000000000001F])) = some .indexOutOfRange ∧
    markOf (step (st 4 0 [.host 0xB0000000000000007])) = some .reservedCommand ∧
    markOf (step (st 4 0 [.host 0xB0000000000000004])) = some .busyWrite ∧
    markOf (step (st 4 0 [.host 0x50000000000000010])) = some .busyScheduleRead := by decide

theorem witness_OpcodeRowsSelectTheirWords :
    (Instr.rdksc 16).wf = true ∧
    (0x6000000000000001F : HWord) &&& (Instr.rdksc 16).row.mask = (Instr.rdksc 16).row.pattern ∧
    decode 0x6000000000000001F = .error .indexOutOfRange := by decide
theorem witness_StepRunsDecodedInstruction :
    (st 3 0 [.host 0xB0000000000000001, .block]).turns = .host 0xB0000000000000001 :: [.block] ∧
    (st 3 0 [.host 0xB0000000000000001, .block]).refusal = none ∧ decode 0xB0000000000000001 = .ok .enc ∧
    (nextOf (exec .enc ((st 3 0 []).withTurns [.block]))).isSome = true ∧
    refusalOf (exec .enc ((st 1 0 []).withTurns [.block])) = some .busyWrite := by decide
theorem witness_BlockAndResetTurns :
    (st 1 0 [.block]).turns = .block :: [] ∧ (st 1 0 [.reset zeroData]).turns = .reset zeroData :: [] ∧
    (st 1 0 []).turns = [] ∧ (st 1 0 [.block]).refusal = none ∧ (st 3 0 []).mode = 3 := by decide
theorem witness_ReadsAnswerReadData :
    (16 : BitVec 5).toNat ≤ 16 ∧ (0 : BitVec 5).toNat ≤ 16 ∧ (st 0 0 []).mode ≠ 4 := by decide
theorem witness_ReadsHaveNoSideEffect :
    (Instr.rdksk 16).isRead = true ∧ (nextOf (exec (.rdksk 16) (st 1 0 []))).isSome = true ∧
    (nextOf (exec (.wrkey 1) (st 3 0 []))).isSome = true ∧ (nextOf (exec (.wrdin 1) (st 3 0 []))).isSome = true ∧
    Instr.genkey.startsOperation = true ∧ (nextOf (exec .genkey (st 3 0 []))).isSome = true := by decide
theorem witness_WriteDataInputWhenIdle : (st 3 0 []).mode = 3 ∧ (st 0 0 []).mode ≠ 3 := by decide
theorem witness_WriteKeyWhenIdle :
    (st 3 0 []).mode = 3 ∧ (st 4 0 []).mode ≠ 3 ∧
    ((0x0101010101010101 : Block) ^^^ (st 3 0 []).key) &&& 0xFEFEFEFEFEFEFEFE = 0 := by decide
theorem witness_CommandIsTestedInOrder :
    (st 3 0 [.host 0xB0000000000000003]).turns = .host 0xB0000000000000003 :: [] ∧
    (st 3 0 [.host 0xB0000000000000003]).refusal = none ∧ HWord.digit 0xB0000000000000003 = 0xB ∧
    (st 3 0 []).legalPair ∧ (st 3 0 []).mode = 3 :=
  ⟨rfl, rfl, by decide, .inl ⟨rfl, rfl⟩, rfl⟩
theorem witness_DoneChangesNothing :
    (st 3 0 []).mode = 3 ∧ (st 2 0 []).mode ≠ 3 ∧ (nextOf (blockStep (st 0 17 []))).map State.mode = some 3 ∧
    (nextOf (blockStep (st 0 0 []))).map State.mode = some 0 := by decide +kernel
theorem witness_BusyCoreRefuses :
    (st 2 0 []).mode ≠ 3 ∧ Instr.done ∈ ([.wrkey 0, .wrdin 0, .dec, .enc, .genkey, .done, .keysched] : List Instr) ∧
    (st 4 0 []).mode = 4 ∧ (Instr.rdksd 16).isKsRead = true ∧ (Instr.rdksd 16).wf = true ∧
    Instr.rdkey.isRead = true ∧ Instr.rdkey.isKsRead = false ∧ (st 0 0 []).mode ≠ 4 := by decide
theorem witness_HostTransactionFrame :
    (nextOf (exec (.rdksk 16) (st 0 0 []))).isSome = true ∧ (nextOf (exec (.wrkey 1) (st 3 0 []))).isSome = true ∧
    (nextOf (exec .keysched (st 3 0 []))).isSome = true ∧ Instr.keysched.isRead = false ∧
    (Instr.rdksk 16).startsOperation = false ∧ Instr.done.startsOperation = false := by decide
theorem witness_IdleCorePerformsEveryTransaction : (st 3 0 []).mode = 3 ∧ (Instr.rdksk 16).wf = true := by decide

theorem witness_PermSelectsTableBits : tableE.length = 48 ∧ tableValid 32 tableE = true ∧ 47 < 48 := by decide
theorem witness_PermIsLinear : tablePC2.length = 48 ∧ tableValid 56 tablePC2 = true := by decide
theorem witness_PermOnBytesAgrees : tablePC1.length = 8 * 7 ∧ tableValid (8 * 8) tablePC1 = true := by decide
theorem witness_RotationIsCircular : (2 = 1 ∨ 2 = 2) ∧ 1 ≤ 28 ∧ 28 ≤ 28 := by decide
theorem witness_ScheduleRecurrence : 15 < 16 ∧ 0 < 16 := by decide
theorem witness_KeyHalvesComeBack : 16 ≤ 16 ∧ 0 ≤ 16 := by decide
theorem witness_ParityHasNoEffect :
    ∀ p : Fin 65, 1 ≤ p.val → p.val ≤ 64 → p.val % 8 ≠ 0 →
      desBit (0x133457799BBCDFF1 : Block) p = desBit (0x133457799BBCDFF0 : Block) p := by decide
theorem witness_SboxRowsArePermutations :
    7 < 8 ∧ 3 < 4 ∧ ((0x123456789ABC : Subkey) ^^^ 0x123456789ABC) &&& 0x861861861861 = 0 := by decide
theorem witness_RoundFunctionSeesOnlyTheMix :
    7 < 8 ∧ perm 48 tableE (0 : Half) ^^^ (0 : Subkey) = perm 48 tableE (0xFFFFFFFF : Half) ^^^ 0xFFFFFFFFFFFF := by decide +kernel
theorem witness_ProcessRecurrence : 15 < 16 ∧ 0 < 16 := by decide
/-- A palindromic schedule that no key has, and it reversed. -/
theorem witness_DirectionIsScheduleOrder :
    ∀ i : Fin 17, 1 ≤ i.val → i.val ≤ 16 →
      (ksRead (Vector.replicate 17 ⟨1, 2, 3⟩) i).k = (ksRead (Vector.replicate 17 (⟨1, 4, 5⟩ : KeySet)) (17 - i)).k ∧
      (ksRead (Vector.replicate 17 (⟨1, 2, 3⟩ : KeySet)) i).k =
        (ksRead (Vector.replicate 17 (⟨1, 2, 3⟩ : KeySet)) (17 - i)).k := by decide
theorem witness_HalfImageIsLeftAligned : 1 ≤ 28 ∧ 28 ≤ 28 ∧ 29 ≤ 29 ∧ 32 ≤ 32 := by decide

theorem witness_CipherStepsAsPrinted :
    ((st 0 0 []).mode = 0 ∨ (st 0 0 []).mode = 1) ∧ (st 0 0 []).rnd = 0 ∧
    1 ≤ (st 1 1 []).rnd.toNat ∧ (st 1 16 []).rnd.toNat ≤ 16 ∧ (st 1 17 []).mode = 1 ∧ (st 1 17 []).rnd = 17 := by decide
theorem witness_KeySchedStepsAsPrinted :
    (st 4 0 []).mode = 4 ∧ (st 4 0 []).rnd = 0 ∧ 1 ≤ (st 4 1 []).rnd.toNat ∧ (st 4 16 []).rnd.toNat ≤ 16 := by decide
theorem witness_GenkeyStoresADraw : (st 3 0 []).mode = 3 ∧ (st 3 0 []).rnd = 0 := by decide
theorem witness_CipherTakesEighteenSteps :
    ((st 0 0 []).mode = 0 ∨ (st 0 0 []).mode = 1) ∧ (st 0 0 []).rnd = 0 ∧
    ((st 1 0 []).mode = 0 ∨ (st 1 0 []).mode = 1) ∧ (st 1 0 []).rnd = 0 := by decide
theorem witness_KeySchedTakesSeventeenSteps :
    (st 4 0 []).mode = 4 ∧ (st 4 0 []).rnd = 0 ∧ (Instr.rdksk 16).isKsRead = true ∧ Instr.done.isRead = false := by decide
theorem witness_EncCompletes : (st 3 0 []).mode = 3 ∧ (st 3 0 []).rnd = 0 := by decide
theorem witness_DecCompletes : (st 3 0 []).mode = 3 ∧ (st 3 0 []).rnd = 0 := by decide
theorem witness_KeySchedCompletes : (st 3 0 []).mode = 3 ∧ (st 3 0 []).rnd = 0 := by decide
theorem witness_StepwiseRefinesAtomic : (st 4 0 []).mode.toNat ≤ 4 ∧ (st 4 0 []).rnd = 0 ∧ (st 0 0 []).mode.toNat ≤ 4 := by
  decide

/-- A host read of `DOUT`, then the block agent's turns but the last. -/
def readThenBlocks (n : Nat) : List Turn := .host 0x10000000000000000 :: List.replicate n .block

theorem witness_InterleavingCannotChangeCipher :
    ((st 1 0 []).mode = 0 ∨ (st 1 0 []).mode = 1) ∧ (st 1 0 []).rnd = 0 ∧
    (∀ u ∈ readThenBlocks 17, u.isReset = false) ∧ (readThenBlocks 17).countP Turn.isBlock = 17 ∧
    (nextOf (run (readThenBlocks 17).length ((st 1 0 []).withTurns (readThenBlocks 17 ++ [.block])))).map State.refusal =
      some none := by
  decide +kernel
theorem witness_InterleavingCannotChangeKeySched :
    (st 4 0 []).mode = 4 ∧ (st 4 0 []).rnd = 0 ∧
    (∀ u ∈ readThenBlocks 16, u.isReset = false) ∧ (readThenBlocks 16).countP Turn.isBlock = 16 ∧
    (nextOf (run (readThenBlocks 16).length ((st 4 0 []).withTurns (readThenBlocks 16 ++ [.block])))).map State.refusal =
      some none := by
  decide +kernel
theorem witness_EncryptThenDecryptRestoresBlock : (st 3 0 []).mode = 3 ∧ (st 3 0 []).rnd = 0 := by decide

/-- A cipher operation one step before its end. -/
def lastCipher (m : BitVec 3) (dir : Direction) : State :=
  { st m 17 [] with l := (feistelState 0 (st m 17 []).ks dir 16).1, r := (feistelState 0 (st m 17 []).ks dir 16).2 }

/-- A KEYSCHED of key 0 one step before its end. -/
def lastSched : State :=
  { st 4 16 [] with ks := keyschedFn 0, c := (keyHalves 0 15).1, d := (keyHalves 0 15).2 }

theorem lastEnc_sound : Sound (lastCipher 1 .encrypt) where
  legal := .inr (.inl ⟨.inr rfl, by decide⟩)
  cipher := fun _ _ => rfl
  halves := fun h => absurd h (by decide)
  entries := fun h => absurd h (by decide)

theorem lastDec_sound : Sound (lastCipher 0 .decrypt) where
  legal := .inr (.inl ⟨.inl rfl, by decide⟩)
  cipher := fun _ _ => rfl
  halves := fun h => absurd h (by decide)
  entries := fun h => absurd h (by decide)

theorem lastSched_sound : Sound lastSched where
  legal := .inr (.inr (.inl ⟨rfl, by decide⟩))
  cipher := fun h => absurd h (by rintro (h | h) <;> exact absurd h (by decide))
  halves := fun _ _ => rfl
  entries := by
    intro _ j hj
    have hj : j < 16 := hj
    interval_cases j <;> decide +kernel

theorem genkey_sound : Sound (st 2 0 []) where
  legal := .inr (.inr (.inr ⟨rfl, rfl⟩))
  cipher := fun h => absurd h (by rintro (h | h) <;> exact absurd h (by decide))
  halves := fun h => absurd h (by decide)
  entries := fun h => absurd h (by decide)

theorem lastEnc_inv : Inv (lastCipher 1 .encrypt) := fun _ => lastEnc_sound
theorem lastDec_inv : Inv (lastCipher 0 .decrypt) := fun _ => lastDec_sound
theorem lastSched_inv : Inv lastSched := fun _ => lastSched_sound
theorem genkey_inv : Inv (st 2 0 []) := fun _ => genkey_sound

theorem noReset_of_noTurn {s : State} (h : s.turns = []) : s.noReset := by
  intro data rest
  simp [h]

theorem witness_EveryStepKeepsInv :
    Inv (lastCipher 1 .encrypt) ∧ ∃ t, step (lastCipher 1 .encrypt) = .next t :=
  ⟨lastEnc_inv, _, rfl⟩
theorem witness_ReachableStatesNeverFault : Reachable (st 3 0 [.host 0xB0000000000000001]) :=
  Reachable.reset zeroData [.host 0xB0000000000000001] 0
theorem witness_OnlyUnreachablePairsFault :
    step (st 7 0 []) = .fault .unreachableSequencer ∧ step (st 4 17 []) = .fault .unreachableSequencer :=
  ⟨rfl, rfl⟩
/-- A refusal; a refused core with a host word, the block agent's turn and no turn to come; a reset of a refused core. -/
theorem witness_OnlyTheHostIsRefused :
    (st 1 0 [.host 0x80000000000000000]).refusal = none ∧
    (st 1 0 [.host 0x80000000000000000]).refusedFor .busyWrite ∧
    (∀ ts ∈ [[.host 0x30000000000000000], [.block], []], ((st 1 0 ts).lose .busyWrite).refusal = some .busyWrite ∧
      ((st 1 0 ts).lose .busyWrite).noReset) ∧
    ((st 1 0 [.reset zeroData]).lose .busyWrite).turns = .reset zeroData :: [] :=
  ⟨rfl, ⟨_, rfl, rfl⟩, by simp [State.noReset, st], rfl⟩
theorem witness_OneOperationAtATime :
    (st 3 0 [.host 0xB0000000000000002]).noReset ∧
    (nextOf (step (st 3 0 [.host 0xB0000000000000002]))).map (fun t => (t.mode, t.refusal)) = some (2, none) ∧
    (st 2 0 []).noReset ∧ (nextOf (step (st 2 0 []))).map (fun t => (t.mode, t.refusal)) = some (3, none) :=
  ⟨fun _ _ => by simp [st], by decide, noReset_of_noTurn rfl, by decide⟩
/-- One state for each operation: the invariant holds, no reset comes, and its step completes the operation. -/
theorem witness_CompletionWritesTheOutput :
    (Inv (lastCipher 1 .encrypt) ∧ (lastCipher 1 .encrypt).noReset ∧ (lastCipher 1 .encrypt).mode = 1 ∧
      ∃ t, step (lastCipher 1 .encrypt) = .next t ∧ t.refusal = none ∧ t.mode = 3) ∧
    (Inv (lastCipher 0 .decrypt) ∧ (lastCipher 0 .decrypt).noReset ∧ (lastCipher 0 .decrypt).mode = 0 ∧
      ∃ t, step (lastCipher 0 .decrypt) = .next t ∧ t.refusal = none ∧ t.mode = 3) ∧
    (Inv (st 2 0 []) ∧ (st 2 0 []).noReset ∧ (st 2 0 []).mode = 2 ∧
      ∃ t, step (st 2 0 []) = .next t ∧ t.refusal = none ∧ t.mode = 3) ∧
    (Inv lastSched ∧ lastSched.noReset ∧ lastSched.mode = 4 ∧
      ∃ t, step lastSched = .next t ∧ t.refusal = none ∧ t.mode = 3) :=
  ⟨⟨lastEnc_inv, noReset_of_noTurn rfl, rfl, _, rfl, rfl, rfl⟩, ⟨lastDec_inv, noReset_of_noTurn rfl, rfl, _, rfl, rfl, rfl⟩,
    ⟨genkey_inv, noReset_of_noTurn rfl, rfl, _, rfl, rfl, rfl⟩, ⟨lastSched_inv, noReset_of_noTurn rfl, rfl, _, rfl, rfl, rfl⟩⟩
/-- Steps that do change `KEY`, `DIN`, `DOUT`, `KS`, `L`, `C`, `RND` and the count of draws. -/
theorem witness_RegistersWrittenOnlyByTheirRules :
    (nextOf (step (st 3 0 [.host 0xA0000000000000001]))).map State.key = some 1 ∧
    (nextOf (step (st 3 0 [.host 0x80000000000000001]))).map State.din = some 1 ∧
    (nextOf (step { st 1 17 [] with l := 1 })).map (fun t => decide (t.dout ≠ 0)) = some true ∧
    (nextOf (step { st 4 0 [] with key := 0x8000000000000000 })).map (fun t => decide (t.c ≠ 0 ∧ (ksRead t.ks 0).c ≠ 0)) =
      some true ∧
    (nextOf (step { st 1 0 [] with din := 1 })).map (fun t => decide (t.l ≠ 0 ∧ t.rnd ≠ 0)) = some true ∧
    (nextOf (step (st 2 0 []))).map (fun t => (t.draws, t.refusal)) = some (1, none) ∧
    (nextOf (step (st 3 0 [.host 0xA0000000000000001]))).map State.refusal = some none := by decide +kernel
theorem witness_ScheduleStaysDerived :
    Inv lastSched ∧ lastSched.noReset ∧ KsDerived lastSched ∧ lastSched.mode = 4 ∧
    ∃ t, step lastSched = .next t ∧ t.refusal = none ∧ t.mode = 3 :=
  ⟨lastSched_inv, noReset_of_noTurn rfl, fun _ => ⟨0, rfl⟩, rfl, _, rfl, rfl, rfl⟩
/-- `KS` the schedule of a key outside KEYSCHED, with an idle core that starts an operation. -/
theorem witness_ScheduleStaysDerived_idle :
    KsDerived { st 3 0 [.host 0xB0000000000000001] with ks := keyschedFn 1 } ∧
    ∃ t, step { st 3 0 [.host 0xB0000000000000001] with ks := keyschedFn 1 } = .next t ∧ t.refusal = none ∧
      t.mode = 1 :=
  ⟨fun _ => ⟨1, rfl⟩, _, rfl, rfl, rfl⟩
theorem witness_BusyCoreCompletes :
    Inv (lastCipher 0 .decrypt) ∧ (lastCipher 0 .decrypt).refusal = none ∧ (lastCipher 0 .decrypt).mode ≠ 3 :=
  ⟨lastDec_inv, rfl, by decide⟩
/-- Two states that differ in all data and agree in `MODE`, `RND` and the turns, for each outcome of a step. -/
theorem witness_StepsDoNotDependOnData :
    (st 2 0 []).key ≠ { st 2 0 [] with key := 1, din := 2 }.key ∧ (nextOf (step (st 2 0 []))).isSome = true ∧
    step (st 7 0 []) = .fault .unreachableSequencer ∧
    (st 1 0 [.host 0x80000000000000000]).refusedFor .busyWrite :=
  ⟨by decide, by decide, rfl, _, rfl, rfl⟩
theorem witness_ScheduleCanBeStale :
    (nextOf (exec .genkey (st 3 0 []))).isSome = true ∧ (nextOf (exec (.wrkey 1) (st 3 0 []))).isSome = true ∧
    (st 2 0 []).mode = 2 ∧ (nextOf (blockStep (st 2 0 []))).isSome = true ∧
    (st 0 0 []).cipherBusy ∧ (nextOf (blockRun 1 (st 0 0 []))).isSome = true :=
  ⟨by decide, by decide, rfl, by decide, .inl rfl, rfl⟩
theorem witness_EngineKeepsNothing :
    (st 1 0 []).rnd = 0 ∧ (st 1 0 []).cipherBusy ∧ (st 4 0 []).rnd = 0 ∧ (st 4 0 []).mode = 4 :=
  ⟨rfl, .inr rfl, rfl, rfl⟩
theorem witness_ResetLeavesTheCoreIdle :
    (st 4 9 [.reset zeroData]).turns = .reset zeroData :: [] ∧
    ((st 4 9 [.reset zeroData]).lose .busyWrite).turns = .reset zeroData :: [] := by decide
theorem witness_ResetForgetsTheState :
    (st 4 9 [.reset zeroData]).turns = (st 1 17 [.reset zeroData]).turns ∧
    (st 4 9 [.reset zeroData]).draws = (st 1 17 [.reset zeroData]).draws ∧
    ∃ data rest, (st 4 9 [.reset zeroData]).turns = .reset data :: rest :=
  ⟨rfl, rfl, _, _, rfl⟩
theorem witness_ResetDataIsUnspecified : (marked 3).mode = 3 ∧ (marked 3).rnd = 0 ∧ (marked 3).refusal = none := by decide

end Sys2Proof.Tests
end

section
/-! PROOFS. The byte buffers of `PERM` (40_bitperm.md R81): a buffer is read bit by bit (`bufferBit`), the loop puts one bit
a turn, and two buffers of one length with the same bits are the same buffer. -/

namespace Sys2Proof.Machine

/-- Bit `s` of a byte buffer, counted from 0 at the most significant end of its first byte: how R81 reads its input. -/
def bufferBit (buf : List Byte) (s : Nat) : Bool := (buf.getD (s / 8) 0).getMsbD (s % 8)

/-! ### `PERM` and `toBytes`, bit by bit -/

theorem getMsbD_perm {w m i : Nat} {T : List Nat} (v : BitVec w) (hlen : T.length = m) (hi : i < m) :
    (perm m T v).getMsbD i = desBit v (tableRead T i) := by
  subst hlen
  have hbits : (permBits T v).length = T.length := by simp [permBits]
  have hbit : (perm T.length T v).getMsbD i = (permBits T v).getD i false := by
    simp [perm, BitVec.getMsbD_setWidth, hbits]
  rw [hbit]
  simp [permBits, tableRead, hi]

theorem tableRead_bounds_of_tableValid {w i : Nat} {T : List Nat} (hvalid : tableValid w T = true) (hi : i < T.length) :
    1 ≤ tableRead T i ∧ tableRead T i ≤ w := by
  have hmem : tableRead T i ∈ T := by simp [tableRead, hi]
  simpa using List.all_eq_true.mp hvalid _ hmem

@[simp] theorem length_toBytes {w : Nat} (v : BitVec w) : (toBytes v).length = w / 8 := by simp [toBytes]

theorem bufferBit_toBytes {n s : Nat} (v : BitVec (8 * n)) (hs : s < 8 * n) : bufferBit (toBytes v) s = v.getMsbD s := by
  have hj : s / 8 < n := by omega
  have hpos : 8 * n - 8 * (s / 8) - 8 + (7 - s % 8) = 8 * n - 1 - s := by omega
  have hk : s % 8 < 8 := by omega
  have hbyte : (toBytes v).getD (s / 8) 0 = v.extractLsb' (8 * n - 8 * (s / 8) - 8) 8 := by simp [toBytes, hj]
  rw [bufferBit, hbyte]
  simp [BitVec.getMsbD, hs, hk, hpos]
  omega

/-! ### A buffer is its length and its bits -/

theorem eq_of_bufferBit_eq {a b : List Byte} (hlen : a.length = b.length)
    (hbit : ∀ s, s < 8 * b.length → bufferBit a s = bufferBit b s) : a = b := by
  refine List.ext_getElem hlen fun j ha hb => BitVec.eq_of_getMsbD_eq fun k hk => ?_
  have hj : (8 * j + k) / 8 = j := by omega
  have hr : (8 * j + k) % 8 = k := by omega
  simpa [bufferBit, hj, hr, ha, hb] using hbit (8 * j + k) (by omega)

theorem bufferBit_replicate_zero (len s : Nat) : bufferBit (List.replicate len 0) s = false := by
  by_cases h : s / 8 < len <;> simp [bufferBit, List.getD, h]

/-! ### One turn of the loop -/

/-- The masked bit of R81 is bit `k` of `x` at the least significant end, zero elsewhere. -/
theorem getLsbD_shiftRight_and_one (x : Byte) {k : Nat} (hk : k < 8) (t : Nat) :
    ((x >>> (7 - k)) &&& 1).getLsbD t = (decide (t = 0) && x.getMsbD k) := by
  by_cases ht : t = 0
  · simp [ht, BitVec.getMsbD, hk]
  · simp [ht]

/-- The bit arithmetic of R81 on one byte: bit `k` of `x` is added at bit `i` of `b`, the other bits of `b` stay. -/
theorem getMsbD_or_bit (x b : Byte) {i j k : Nat} (hi : i < 8) (hj : j < 8) (hk : k < 8) :
    (b ||| (((x >>> (7 - k)) &&& 1) <<< (7 - i))).getMsbD j = (b.getMsbD j || (decide (j = i) && x.getMsbD k)) := by
  rw [BitVec.getMsbD_or, BitVec.getMsbD_eq_getLsbD (_ <<< _), BitVec.getLsbD_shiftLeft,
    getLsbD_shiftRight_and_one x hk]
  by_cases hji : j = i
  · have hin : 7 - i < 8 := by omega
    simp [hji, hi, hin]
  · have hoff : 7 - j < 7 - i ∨ 7 - j - (7 - i) ≠ 0 := by omega
    rcases hoff with hlow | hhigh
    · simp [hji, hlow]
    · simp [hji, hhigh]

@[simp] theorem length_permByteStep (T : List Nat) (inp out : List Byte) (i : Nat) :
    (permByteStep T inp out i).length = out.length := by simp [permByteStep]

theorem bufferBit_permByteStep (T : List Nat) (inp : List Byte) {out : List Byte} {i : Nat} (hi : i < 8 * out.length)
    (s : Nat) : bufferBit (permByteStep T inp out i) s =
      (bufferBit out s || (decide (s = i) && bufferBit inp (tableRead T i - 1))) := by
  have hmod (a : Nat) : a % 8 < 8 := Nat.mod_lt a (by decide)
  by_cases hbyte : s / 8 = i / 8
  · have hs : s = i ↔ s % 8 = i % 8 := by omega
    have hlt : i / 8 < out.length := by omega
    simp only [bufferBit, permByteStep, hbyte, hs]
    rw [← getMsbD_or_bit _ _ (hmod i) (hmod s) (hmod _)]
    simp [hlt]
  · have hs : s ≠ i := fun h => hbyte (by rw [h])
    simp [bufferBit, permByteStep, hs, List.getD, Ne.symm hbyte]

/-! ### The loop -/

/-- The output buffer of R81 after the first `m` turns of its loop. -/
def permByteTurns (T : List Nat) (inp : List Byte) (len m : Nat) : List Byte :=
  (List.range m).foldl (permByteStep T inp) (List.replicate len 0)

theorem permBytes_eq_permByteTurns (T : List Nat) (inp : List Byte) :
    permBytes T inp = permByteTurns T inp ((T.length + 7) / 8) T.length := rfl

theorem permByteTurns_zero (T : List Nat) (inp : List Byte) (len : Nat) :
    permByteTurns T inp len 0 = List.replicate len 0 := rfl

theorem permByteTurns_succ (T : List Nat) (inp : List Byte) (len m : Nat) :
    permByteTurns T inp len (m + 1) = permByteStep T inp (permByteTurns T inp len m) m := by
  simp [permByteTurns, List.range_succ]

@[simp] theorem length_permByteTurns (T : List Nat) (inp : List Byte) (len m : Nat) :
    (permByteTurns T inp len m).length = len := by
  induction m with
  | zero => simp [permByteTurns_zero]
  | succ m ih => simp [permByteTurns_succ, ih]

/-- The invariant of the loop: the first `m` bits are those the table selects, the others are still zero. -/
theorem bufferBit_permByteTurns (T : List Nat) (inp : List Byte) {len m : Nat} (hm : m ≤ 8 * len) (s : Nat) :
    bufferBit (permByteTurns T inp len m) s = (decide (s < m) && bufferBit inp (tableRead T s - 1)) := by
  induction m with
  | zero => rw [permByteTurns_zero, bufferBit_replicate_zero]; simp
  | succ m ih =>
    rw [permByteTurns_succ, bufferBit_permByteStep T inp (by simpa using hm), ih (by omega)]
    by_cases hs : s = m
    · simp [hs]
    · have hlt : s < m + 1 ↔ s < m := by omega
      simp [hs, hlt]

theorem bufferBit_permBytes {T : List Nat} (inp : List Byte) {s : Nat} (hs : s < T.length) :
    bufferBit (permBytes T inp) s = bufferBit inp (tableRead T s - 1) := by
  rw [permBytes_eq_permByteTurns, bufferBit_permByteTurns T inp (by omega)]
  simp [hs]

theorem length_permBytes (T : List Nat) (inp : List Byte) : (permBytes T inp).length = (T.length + 7) / 8 := by
  simp [permBytes_eq_permByteTurns]

/-- Settles O21: bit `s` of both buffers is the bit of `v` at position `T[s]`. -/
theorem permOnBytesAgrees : Obligations.PermOnBytesAgrees := by
  intro n k T v hlen hvalid
  refine eq_of_bufferBit_eq ?_ fun s hs => ?_
  · rw [length_permBytes, length_toBytes, hlen]
    omega
  · have hsk : s < 8 * k := by simpa using hs
    obtain ⟨hpos, hle⟩ := tableRead_bounds_of_tableValid hvalid (i := s) (by omega)
    calc bufferBit (permBytes T (toBytes v)) s
        = bufferBit (toBytes v) (tableRead T s - 1) := bufferBit_permBytes _ (by omega)
      _ = desBit v (tableRead T s) := bufferBit_toBytes v (by omega)
      _ = (perm (8 * k) T v).getMsbD s := (getMsbD_perm v hlen hsk).symm
      _ = bufferBit (toBytes (perm (8 * k) T v)) s := (bufferBit_toBytes _ hsk).symm

end Sys2Proof.Machine
end

section
/-! PROOFS. The state and its invariant (10_state.md): what one host transaction and one block step can change, that each
keeps `Sound`, and from that the rules of every step of the machine and of every run. -/

namespace Sys2Proof.Machine

/-! ### What a step of either agent leaves unchanged -/

/-- Settles O17: by the five kinds of transaction that `exec` performs. -/
theorem hostTransactionFrame : Obligations.HostTransactionFrame := by
  intro i s t h
  rcases exec_cases h with ⟨hread, a, rfl⟩ | ⟨_, v, rfl, rfl⟩ | ⟨_, v, rfl, rfl⟩ | ⟨_, rfl, rfl⟩ | ⟨_, hstart, c, _, rfl⟩
  · simp [hread]
  · simp
  · simp
  · simp
  · simp [hstart]

/-- What a step of the block agent changes, register by register (R18, R137 to R139, R98, R99, R152). -/
structure BlockFrame (s t : State) : Prop where
  din : t.din = s.din
  refusal : t.refusal = s.refusal
  key : t.key = s.key ∨ (s.mode = 2 ∧ t.mode = 3)
  dout : t.dout = s.dout ∨ (s.cipherBusy ∧ s.rnd = 17 ∧ t.mode = 3)
  ks : t.ks = s.ks ∨ s.mode = 4
  halves : (t.l = s.l ∧ t.r = s.r) ∨ s.cipherBusy
  keyHalves : (t.c = s.c ∧ t.d = s.d) ∨ s.mode = 4
  rnd : t.rnd = s.rnd ∨ s.mode ≠ 3
  draws : t.draws = s.draws ∨ s.mode = 2
  mode : t.mode = s.mode ∨ (s.mode ≠ 3 ∧ t.mode = 3)

/-- The literal is in the form `simp` gives it. -/
theorem State.cipherBusy.mode_ne_three {s : State} (h : s.cipherBusy) : s.mode ≠ 3#3 := by
  rcases h with h | h <;> simp [h]

theorem State.cipherBusy.mode_ne_four {s : State} (h : s.cipherBusy) : s.mode ≠ 4 := by
  rcases h with h | h <;> simp [h]

/-- By the rows of the table of R18. -/
theorem blockStep_frame {s t : State} (h : blockStep s = .next t) : BlockFrame s t := by
  rcases blockStep_cases h with ⟨_, rfl⟩ | ⟨hm, _, rfl⟩ | ⟨hc, _, rfl⟩ | ⟨hc, _, _, rfl⟩ | ⟨hc, hr, rfl⟩ | ⟨hm, _, rfl⟩ |
    ⟨hm, _, _, rfl⟩ | ⟨hm, _, rfl⟩
  · constructor <;> simp
  · constructor <;> simp [genkeyEffect, hm]
  · constructor <;> simp [cipherInit, hc, hc.mode_ne_three]
  · constructor <;> simp [cipherRound, hc, hc.mode_ne_three]
  · constructor <;> simp [cipherFinal, hc, hr, hc.mode_ne_three]
  · constructor <;> simp [ksInit, hm]
  · constructor <;> simp [ksRoundWrites, hm]
  · constructor <;> simp [ksRoundWrites, hm]

/-- A step that is no reset and does not end refused is the block agent's or a host transaction performed, whatever turns
are left to come after it. -/
theorem step_agent_cases {s t : State} (h : step s = .next t) (hn : s.noReset) (ht : t.refusal = none) :
    s.refusal = none ∧
    ((s.blockNext ∧ ∃ ts, blockStep (s.withTurns ts) = .next t) ∨
     ∃ w rest i, s.turns = .host w :: rest ∧ decode w = .ok i ∧ exec i (s.withTurns rest) = .next t) := by
  rcases step_cases_of_not_refused h hn ht with ⟨hr, h0, hb⟩ | ⟨hr, rest, h0, hb⟩ | ⟨hr, hx⟩
  · exact ⟨hr, .inl ⟨.inl h0, s.turns, hb⟩⟩
  · exact ⟨hr, .inl ⟨.inr ⟨rest, h0⟩, rest, hb⟩⟩
  · exact ⟨hr, .inr hx⟩

/-- A transaction that changes `MODE` was issued to an idle core and starts an operation. -/
theorem exec_mode {i : Instr} {s t : State} (h : exec i s = .next t) :
    t.mode = s.mode ∨ (s.mode = 3 ∧ i.startsOperation = true) := by
  rcases exec_cases h with ⟨_, a, rfl⟩ | ⟨_, v, _, rfl⟩ | ⟨_, v, _, rfl⟩ | ⟨_, _, rfl⟩ | ⟨hm, hstart, _⟩
  · exact .inl rfl
  · exact .inl rfl
  · exact .inl rfl
  · exact .inl rfl
  · exact .inr ⟨hm, hstart⟩

/-- A transaction that changes `KEY` is a WRKEY, issued to an idle core. -/
theorem exec_key {i : Instr} {s t : State} (h : exec i s = .next t) :
    t.key = s.key ∨ ∃ v, i = .wrkey v ∧ t.key = v ∧ s.mode = 3 := by
  rcases exec_cases h with ⟨_, a, rfl⟩ | ⟨_, v, _, rfl⟩ | ⟨hm, v, hi, rfl⟩ | ⟨_, _, rfl⟩ | ⟨_, _, c, _, rfl⟩
  · exact .inl rfl
  · exact .inl rfl
  · exact .inr ⟨v, hi, rfl, hm⟩
  · exact .inl rfl
  · exact .inl rfl

/-- A transaction that changes `DIN` is a WRDIN, issued to an idle core. -/
theorem exec_din {i : Instr} {s t : State} (h : exec i s = .next t) :
    t.din = s.din ∨ ∃ v, i = .wrdin v ∧ t.din = v ∧ s.mode = 3 := by
  rcases exec_cases h with ⟨_, a, rfl⟩ | ⟨hm, v, hi, rfl⟩ | ⟨_, v, _, rfl⟩ | ⟨_, _, rfl⟩ | ⟨_, _, c, _, rfl⟩
  · exact .inl rfl
  · exact .inr ⟨v, hi, rfl, hm⟩
  · exact .inl rfl
  · exact .inl rfl
  · exact .inl rfl

/-! ### The half-done operations -/

/-- A pending operation, or none, has computed nothing yet. -/
theorem sound_of_rnd_zero {s : State} (hl : s.legalPair) (h0 : s.rnd = 0) : Sound s where
  legal := hl
  cipher := fun _ h => absurd h0 h
  halves := fun _ h => absurd h0 h
  entries := fun _ j hj => by simp [h0] at hj

theorem sound_of_idle {s : State} (hm : s.mode = 3) (h0 : s.rnd = 0) : Sound s :=
  sound_of_rnd_zero (.inl ⟨hm, h0⟩) h0

theorem State.legalPair.rnd_eq_zero {s : State} (h : s.legalPair) (hm : s.mode = 3) : s.rnd = 0 := by
  rcases h with ⟨_, h0⟩ | ⟨hc, _⟩ | ⟨h4, _⟩ | ⟨_, h0⟩
  · exact h0
  · exact absurd hm hc.mode_ne_three
  · simp [h4] at hm
  · exact h0

/-- `Sound` speaks neither of the answer nor of the turns to come. -/
theorem Sound.withAnswer {s : State} (h : Sound s) (a : Option Block) : Sound (s.withAnswer a) :=
  ⟨h.legal, h.cipher, h.halves, h.entries⟩

theorem Sound.withTurns {s : State} (h : Sound s) (ts : List Turn) : Sound (s.withTurns ts) :=
  ⟨h.legal, h.cipher, h.halves, h.entries⟩

theorem toNat_rnd_succ {n : BitVec 5} (h : n.toNat ≤ 16) : (n + 1).toNat = n.toNat + 1 := by
  bv_omega

theorem exists_toNat_rnd_eq_succ {n : BitVec 5} (h : n ≠ 0) : ∃ k, n.toNat = k + 1 :=
  Nat.exists_eq_succ_of_ne_zero fun h0 => h (BitVec.eq_of_toNat_eq h0)

/-- The halves after the Init step are `(L[0], R[0])` (R137). -/
theorem cipherInit_halves (s : State) (dir : Direction) :
    ((cipherInit s).l, (cipherInit s).r) = feistelState s.din s.ks dir 0 := rfl

/-- The Round step with `RND = k + 1` takes `(L[k], R[k])` to `(L[k+1], R[k+1])` (R138, R140). -/
theorem cipherRound_halves {s : State} {dir : Direction} {k : Nat} (hk : s.rnd.toNat = k + 1)
    (h : (s.l, s.r) = feistelState s.din s.ks dir k) :
    ((cipherRound dir s).l, (cipherRound dir s).r) = feistelState s.din s.ks dir (k + 1) := by
  simp [cipherRound, feistelState, hk, h]

theorem sound_cipherInit {s : State} (hc : s.cipherBusy) : Sound (cipherInit s) where
  legal := .inr (.inl ⟨hc, by simp [cipherInit]⟩)
  cipher := fun _ _ => cipherInit_halves s _
  halves := fun h4 => absurd h4 hc.mode_ne_four
  entries := fun h4 => absurd h4 hc.mode_ne_four

theorem sound_cipherRound {s : State} (h : Sound s) (hc : s.cipherBusy) (h0 : s.rnd ≠ 0) (h16 : s.rnd.toNat ≤ 16) :
    Sound (cipherRound s.direction s) := by
  have hrnd : (cipherRound s.direction s).rnd.toNat = s.rnd.toNat + 1 := toNat_rnd_succ h16
  obtain ⟨k, hk⟩ := exists_toNat_rnd_eq_succ h0
  have hlr : (s.l, s.r) = feistelState s.din s.ks s.direction k := by simpa [hk] using h.cipher hc h0
  exact {
    legal := .inr (.inl ⟨hc, by omega⟩)
    cipher := fun _ _ => by
      rw [hrnd, Nat.add_sub_cancel, hk]
      exact cipherRound_halves hk hlr
    halves := fun h4 => absurd h4 hc.mode_ne_four
    entries := fun h4 => absurd h4 hc.mode_ne_four }

/-- KEYSCHED has done entries 0 to `n`: `C`, `D` are `C[n]`, `D[n]` and the entries are those of the schedule of `KEY`
(R98, R99). -/
structure ScheduleDone (s : State) (n : Nat) : Prop where
  halves : (s.c, s.d) = keyHalves s.key n
  entries : ∀ j, j ≤ n → ksRead s.ks j = keySetAt s.key j

/-- The KS-Init step does entry 0 (R98). -/
theorem scheduleDone_ksInit (s : State) : ScheduleDone (ksInit s) 0 where
  halves := rfl
  entries := fun j hj => by
    obtain rfl : j = 0 := by omega
    exact ksRead_setIfInBounds_self _ 0 _ (by decide)

/-- The KS-Round step with `RND = n + 1` does entry `n + 1` (R99). -/
theorem scheduleDone_ksRoundWrites {s : State} {n : Nat} (h : ScheduleDone s n) (hn : n < 16) :
    ScheduleDone (ksRoundWrites s (n + 1)) (n + 1) := by
  obtain ⟨hc, hd⟩ := Prod.mk.inj h.halves
  have hentry : keySetOf (n + 1) (rotl28 s.c (shiftAt (n + 1))) (rotl28 s.d (shiftAt (n + 1))) =
      keySetAt s.key (n + 1) := by
    rw [hc, hd]
    rfl
  refine ⟨by simp [ksRoundWrites, keyHalves, hc, hd], fun j hj => ?_⟩
  by_cases hjn : j = n + 1
  · rw [hjn]
    exact (ksRead_setIfInBounds_self _ _ _ (by omega)).trans hentry
  · calc ksRead (ksRoundWrites s (n + 1)).ks j
        = ksRead s.ks j := ksRead_setIfInBounds_ne _ _ _ _ (Ne.symm hjn)
      _ = keySetAt s.key j := h.entries j (by omega)

/-- All seventeen entries done are the schedule. -/
theorem ScheduleDone.ks_eq {s : State} (h : ScheduleDone s 16) : s.ks = keyschedFn s.key :=
  ks_ext fun i hi => by rw [h.entries i (by omega), ksRead_keyschedFn _ hi]

theorem Sound.scheduleDone {s : State} {n : Nat} (h : Sound s) (hm : s.mode = 4) (hn : s.rnd.toNat = n + 1) :
    ScheduleDone s n where
  halves := by
    have h0 : s.rnd ≠ 0 := fun h0 => by simp [h0] at hn
    simpa [hn] using h.halves hm h0
  entries := fun j hj => h.entries hm j (by omega)

/-- Conversely, a KEYSCHED that has done the entries below `RND` is `Sound`. -/
theorem ScheduleDone.sound {s : State} {n : Nat} (h : ScheduleDone s n) (hm : s.mode = 4) (hn : s.rnd.toNat = n + 1)
    (h16 : n < 16) : Sound s where
  legal := .inr (.inr (.inl ⟨hm, by omega⟩))
  cipher := fun hc => absurd hm hc.mode_ne_four
  halves := fun _ _ => by simpa [hn] using h.halves
  entries := fun _ j hj => h.entries j (by omega)

theorem sound_ksInit {s : State} (hm : s.mode = 4) : Sound (ksInit s) :=
  (scheduleDone_ksInit s).sound hm rfl (by decide)

theorem sound_ksRound {s : State} (h : Sound s) (hm : s.mode = 4) (h0 : s.rnd ≠ 0) (h16 : s.rnd.toNat < 16) :
    Sound ((ksRoundWrites s s.rnd.toNat).withRnd (s.rnd + 1)) := by
  obtain ⟨n, hn⟩ := exists_toNat_rnd_eq_succ h0
  have hdone : ScheduleDone (ksRoundWrites s (n + 1)) (n + 1) := scheduleDone_ksRoundWrites (h.scheduleDone hm hn) (by omega)
  have hrnd : (s.rnd + 1).toNat = n + 1 + 1 := by rw [toNat_rnd_succ h16.le, hn]
  rw [hn]
  exact ScheduleDone.sound ⟨hdone.halves, hdone.entries⟩ hm hrnd (by omega)

/-! ### Every step keeps the invariant -/

theorem blockStep_sound {s t : State} (hs : Sound s) (h : blockStep s = .next t) : Sound t := by
  rcases blockStep_cases h with ⟨_, rfl⟩ | ⟨_, h0, rfl⟩ | ⟨hc, _, rfl⟩ | ⟨hc, h0, h16, rfl⟩ | ⟨_, _, rfl⟩ | ⟨hm, _, rfl⟩ |
    ⟨hm, h0, h16, rfl⟩ | ⟨_, _, rfl⟩
  · exact hs
  · exact sound_of_idle rfl h0
  · exact sound_cipherInit hc
  · exact sound_cipherRound hs hc h0 h16
  · exact sound_of_idle rfl rfl
  · exact sound_ksInit hm
  · exact sound_ksRound hs hm h0 h16
  · exact sound_of_idle rfl rfl

/-- A command leaves a pending operation: a pair of R18 with `RND = 0`. -/
theorem legalPair_withMode {s : State} {c : BitVec 3} (hc : c = 0 ∨ c = 1 ∨ c = 2 ∨ c = 4) (h0 : s.rnd = 0) :
    (s.withMode c).legalPair := by
  rcases hc with rfl | rfl | rfl | rfl <;> simp [State.legalPair, State.cipherBusy, h0]

theorem exec_sound {i : Instr} {s t : State} (hs : Sound s) (h : exec i s = .next t) : Sound t := by
  have h0 (hm : s.mode = 3) : s.rnd = 0 := hs.legal.rnd_eq_zero hm
  rcases exec_cases h with ⟨_, a, rfl⟩ | ⟨hm, v, _, rfl⟩ | ⟨hm, v, _, rfl⟩ | ⟨hm, _, rfl⟩ | ⟨hm, _, c, hc, rfl⟩
  · exact hs.withAnswer _
  · exact sound_of_idle hm (h0 hm)
  · exact sound_of_idle hm (h0 hm)
  · exact hs.withAnswer _
  · exact (sound_of_rnd_zero (legalPair_withMode hc (h0 hm)) (h0 hm)).withAnswer _

/-- Settles O45: a reset leaves the core idle, and any other step that ends not refused is one of the two agents', from a
core that was not refused. -/
theorem everyStepKeepsInv : Obligations.EveryStepKeepsInv := by
  intro s t hinv h ht
  by_cases hreset : ∃ data rest, s.turns = .reset data :: rest
  · obtain ⟨data, rest, hturn⟩ := hreset
    rw [step_reset hturn] at h
    cases h
    exact sound_of_idle rfl rfl
  · obtain ⟨hr, ⟨_, ts, hb⟩ | ⟨_, rest, i, _, _, hx⟩⟩ := step_agent_cases h (by simpa [State.noReset] using hreset) ht
    · exact blockStep_sound ((hinv hr).withTurns ts) hb
    · exact exec_sound ((hinv hr).withTurns rest) hx

/-! ### The schedule -/

/-- A block step that leaves `MODE = 4` is the sixteenth KS-Round step, and `KS` is then the schedule of `KEY` (R99). -/
theorem blockStep_keysched_done {s t : State} (hs : Sound s) (h : blockStep s = .next t) (hm : s.mode = 4)
    (ht : t.mode ≠ 4) : t.ks = keyschedFn t.key := by
  rw [blockStep_keysched hm] at h
  rcases keyschedStep_cases s with ⟨_, e⟩ | ⟨_, _, e⟩ | ⟨h16, e⟩ | ⟨_, e⟩ <;> rw [e] at h <;> cases h
  · exact absurd hm ht
  · exact absurd hm ht
  · exact (scheduleDone_ksRoundWrites (hs.scheduleDone hm h16) (by decide)).ks_eq

theorem blockStep_ksDerived {s t : State} (hs : Sound s) (h : blockStep s = .next t) (hk : KsDerived s) :
    KsDerived t := by
  intro ht
  by_cases hm : s.mode = 4
  · exact ⟨t.key, blockStep_keysched_done hs h hm ht⟩
  · rw [(blockStep_frame h).ks.resolve_right hm]
    exact hk hm

theorem exec_ks {i : Instr} {s t : State} (h : exec i s = .next t) : t.ks = s.ks :=
  (hostTransactionFrame i s t h).2.1

theorem exec_ksDerived {i : Instr} {s t : State} (h : exec i s = .next t) (hk : KsDerived s) : KsDerived t := by
  intro ht
  rw [exec_ks h]
  apply hk
  rcases exec_mode h with hm | ⟨h3, _⟩
  · rwa [← hm]
  · simp [h3]

/-- Settles O53: only KEYSCHED writes `KS`, and the step that leaves its `MODE` has written the whole schedule. -/
theorem scheduleStaysDerived : Obligations.ScheduleStaysDerived := by
  intro s t hinv hn h ht
  obtain ⟨hr, ⟨_, ts, hb⟩ | ⟨_, rest, i, _, _, hx⟩⟩ := step_agent_cases h hn ht
  · have hs : Sound (s.withTurns ts) := (hinv hr).withTurns ts
    refine ⟨fun hk => blockStep_ksDerived hs hb hk, fun hm h3 => ?_⟩
    have hks : t.ks = keyschedFn t.key := blockStep_keysched_done hs hb hm (by simp [h3])
    exact ⟨fun _ => ⟨t.key, hks⟩, hks⟩
  · refine ⟨fun hk => exec_ksDerived hx hk, fun hm h3 => ?_⟩
    have hbusy : s.mode ≠ 3 := by simp [hm]
    have hkept : t.mode = s.mode := (exec_mode hx).resolve_right fun hidle => hbusy hidle.1
    exact absurd (hkept.symm.trans h3) hbusy

/-! ### Runs never fault -/

/-- In a pair of R18 the block agent has a step. -/
theorem blockStep_of_legalPair {s : State} (h : s.legalPair) (f : Fault) : blockStep s ≠ .fault f := by
  rcases h with ⟨hm, _⟩ | ⟨hc, h17⟩ | ⟨hm, h16⟩ | ⟨hm, h0⟩
  · simp [blockStep_idle hm]
  · rw [blockStep_cipher hc]
    rcases cipherStep_cases s.direction s with ⟨_, e⟩ | ⟨_, _, e⟩ | ⟨_, e⟩ | ⟨hgt, _⟩
    · simp [e]
    · simp [e]
    · simp [e]
    · omega
  · rw [blockStep_keysched hm]
    rcases keyschedStep_cases s with ⟨_, e⟩ | ⟨_, _, e⟩ | ⟨_, e⟩ | ⟨hgt, _⟩
    · simp [e]
    · simp [e]
    · simp [e]
    · omega
  · simp [blockStep_genkey hm, genkeyStep, h0]

theorem answer_not_fault (s : State) (v : Block) (f : Fault) : answer s v ≠ .fault f := nofun

theorem whenIdle_not_fault (s t : State) (f : Fault) : whenIdle s t ≠ .fault f := by
  rw [whenIdle]
  split <;> simp

theorem answerKs_not_fault (s : State) (i : BitVec 5) (view : KeySet → Block) (f : Fault) :
    answerKs s i view ≠ .fault f := by
  rw [answerKs]
  split
  · split <;> simp
  · simp

/-- A host transaction is performed or refused: it never faults (R174). -/
theorem exec_not_fault (i : Instr) (s : State) (f : Fault) : exec i s ≠ .fault f := by
  cases i with
  | rddin | rddout | rdkey | rdmode => exact answer_not_fault _ _ _
  | rdksk i => exact answerKs_not_fault s i (fun e => zext64 (subkeyImage e.k)) f
  | rdksc i => exact answerKs_not_fault s i (fun e => zext64 (halfImage e.c)) f
  | rdksd i => exact answerKs_not_fault s i (fun e => zext64 (halfImage e.d)) f
  | wrdin v | wrkey v => exact whenIdle_not_fault _ _ _
  | dec | enc | genkey | done | keysched => exact whenIdle_not_fault _ _ _

theorem markRefusal_not_fault {s : State} {o : Out} {f : Fault} (h : o ≠ .fault f) : markRefusal s o ≠ .fault f := by
  cases o with
  | next t => simp [markRefusal]
  | fault g => exact h
  | refused r => simp [markRefusal]

theorem Inv.step_not_fault {s : State} (hinv : Inv s) (f : Fault) : step s ≠ .fault f := by
  have hlegal (hr : s.refusal = none) (ts : List Turn) : (s.withTurns ts).legalPair := (hinv hr).legal
  rcases step_cases s with ⟨hr, _, e⟩ | ⟨hr, rest, _, e⟩ | ⟨_, w, rest, i, _, _, e⟩ | ⟨_, w, rest, x, _, _, e⟩ |
    ⟨data, rest, _, e⟩ | ⟨x, _, _, e⟩ <;> rw [e]
  · exact blockStep_of_legalPair (hlegal hr s.turns) f
  · exact blockStep_of_legalPair (hlegal hr rest) f
  · exact markRefusal_not_fault (exec_not_fault _ _ _)
  · simp
  · simp
  · simp

theorem Reachable.inv {s : State} (h : Reachable s) : Inv s := by
  induction h with
  | reset data turns draws => exact fun _ => sound_of_idle rfl rfl
  | step _ hstep ih => exact everyStepKeepsInv _ _ ih hstep

/-- Settles O47: the invariant holds at a reset and every step keeps it, and no state with it faults. -/
theorem reachableStatesNeverFault : Obligations.ReachableStatesNeverFault :=
  fun _ h => ⟨h.inv, h.inv.step_not_fault⟩

/-! ### Which step changes which register -/

/-- Settles O50: a block step keeps `MODE` or completes; a host transaction changes it only on an idle core. -/
theorem oneOperationAtATime : Obligations.OneOperationAtATime := by
  intro s t h hn ht
  obtain ⟨_, ⟨hnext, ts, hb⟩ | ⟨w, rest, i, hturn, hd, hx⟩⟩ := step_agent_cases h hn ht
  · rcases (blockStep_frame hb).mode with hm | ⟨hbusy, h3⟩
    · have hm : t.mode = s.mode := hm
      exact ⟨fun hs ht => absurd (hm.trans hs) ht, fun _ _ => hnext, fun _ => .inr hm⟩
    · exact ⟨fun hs => absurd hs hbusy, fun _ _ => hnext, fun _ => .inl h3⟩
  · rcases exec_mode hx with hm | ⟨hidle, hstart⟩
    · have hm : t.mode = s.mode := hm
      exact ⟨fun hs ht => absurd (hm.trans hs) ht, fun hs ht => absurd (hm.symm.trans ht) hs, fun _ => .inr hm⟩
    · exact ⟨fun _ _ => ⟨w, rest, i, hturn, hd, hstart⟩, fun hs => absurd hidle hs, fun hs => absurd hidle hs⟩

/-- Settles O52: a block step by its frame; a host transaction changes `KEY` and `DIN` only. -/
theorem registersWrittenOnlyByTheirRules : Obligations.RegistersWrittenOnlyByTheirRules := by
  intro s t h hn ht
  obtain ⟨_, ⟨hnext, ts, hb⟩ | ⟨w, rest, i, hturn, hd, hx⟩⟩ := step_agent_cases h hn ht
  · obtain ⟨din, _, key, dout, ks, halves, keyHalves, rnd, draws, _⟩ := blockStep_frame hb
    refine ⟨fun hne => .inr ⟨hnext, key.resolve_left hne⟩, fun hne => absurd din hne,
      fun hne => ⟨hnext, dout.resolve_left hne⟩, fun hne => ⟨hnext, ks.resolve_left hne⟩,
      fun hne => ⟨hnext, halves.resolve_left ?_⟩, fun hne => ⟨hnext, keyHalves.resolve_left ?_⟩,
      fun hne => ⟨hnext, rnd.resolve_left hne⟩, fun hne => ⟨hnext, draws.resolve_left hne⟩⟩
    · exact not_and_or.mpr hne
    · exact not_and_or.mpr hne
  · obtain ⟨dout, ks, rnd, hl, hr, hc, hd', _, draws, _⟩ := hostTransactionFrame i _ t hx
    refine ⟨fun hne => ?_, fun hne => ?_, fun hne => absurd dout hne, fun hne => absurd ks hne,
      fun hne => absurd ⟨hl, hr⟩ (not_and_or.mpr hne), fun hne => absurd ⟨hc, hd'⟩ (not_and_or.mpr hne),
      fun hne => absurd rnd hne, fun hne => absurd draws hne⟩
    · obtain ⟨v, rfl, hv, hm⟩ := (exec_key hx).resolve_left hne
      exact .inl ⟨w, rest, v, hturn, hd, hv, hm⟩
    · obtain ⟨v, rfl, hv, hm⟩ := (exec_din hx).resolve_left hne
      exact ⟨w, rest, v, hturn, hd, hv, hm⟩

/-! ### What an operation starts from, and what reset leaves -/

/-- The first step of a cipher operation (R137). -/
theorem blockStep_cipherInit {s : State} (hc : s.cipherBusy) (h0 : s.rnd = 0) : blockStep s = .next (cipherInit s) := by
  rw [blockStep_cipher hc, cipherStep, if_pos h0]

/-- The first step of KEYSCHED (R98). -/
theorem blockStep_ksInit {s : State} (hm : s.mode = 4) (h0 : s.rnd = 0) : blockStep s = .next (ksInit s) := by
  rw [blockStep_keysched hm, keyschedStep, if_pos h0]

/-- The Init step overwrites `L`, `R`; the KS-Init step overwrites `C`, `D`. -/
theorem cipherInit_withHalves (s : State) (a b : Half) : cipherInit (s.withHalves a b) = cipherInit s := rfl

theorem ksInit_withKeyHalves (s : State) (c d : KeyHalf) : ksInit (s.withKeyHalves c d) = ksInit s := rfl

/-- Settles O57: the first step of either operation overwrites what the registers held. -/
theorem engineKeepsNothing : Obligations.EngineKeepsNothing := by
  intro s a b c d h0
  refine ⟨fun hc => ?_, fun hm => ?_⟩
  · have hc' : (s.withHalves a b).cipherBusy := hc
    rw [blockStep_cipherInit hc' h0, cipherInit_withHalves, blockStep_cipherInit hc h0]
  · rw [blockStep_ksInit (s := s.withKeyHalves c d) hm h0, ksInit_withKeyHalves, blockStep_ksInit hm h0]

/-- What the registers hold that R23 leaves unspecified after reset. -/
def State.data (s : State) : ResetData := ⟨s.key, s.din, s.dout, s.ks, s.l, s.r, s.c, s.d⟩

/-- An idle core that is not refused is what a reset leaves that leaves its data. -/
theorem resetWith_data {s : State} (hm : s.mode = 3) (h0 : s.rnd = 0) (hr : s.refusal = none) :
    { State.resetWith s.data with rdata := s.rdata, turns := s.turns, draws := s.draws } = s := by
  obtain ⟨mode, rnd, _⟩ := s
  cases hm
  cases h0
  cases hr
  rfl

/-- Settles O60: the data are those the state holds. -/
theorem resetDataIsUnspecified : Obligations.ResetDataIsUnspecified :=
  fun s hm h0 hr => ⟨⟨s.data, resetWith_data hm h0 hr⟩, fun _ => ⟨rfl, rfl, rfl⟩⟩

end Sys2Proof.Machine
end

section
/-! PROOFS. What the agents' steps do to each other (20_memory.md): a host transaction issued twice (R38), an operation taken
step by step against its one-step form (R37), and an operation under whatever the host issues meanwhile (R41). One
predicate carries the last two: `InProgress s n t`, the state after `n` block steps of the operation pending in `s`. -/

namespace Sys2Proof.Machine

/-! ### Transactions repeated -/

/-- No transaction looks at the answer of the one before it. -/
theorem exec_withAnswer (i : Instr) (s : State) (a : Option Block) : exec i (s.withAnswer a) = exec i s := by
  cases i <;> rfl

/-- A command that starts an operation is the acceptance of a busy code (R155). -/
theorem exec_eq_acceptCommand {i : Instr} (h : i.startsOperation = true) :
    ∃ c : BitVec 3, c ≠ 3 ∧ ∀ s, exec i s = acceptCommand s c := by
  cases i with
  | dec => exact ⟨0, by decide, fun _ => rfl⟩
  | enc => exact ⟨1, by decide, fun _ => rfl⟩
  | genkey => exact ⟨2, by decide, fun _ => rfl⟩
  | keysched => exact ⟨4, by decide, fun _ => rfl⟩
  | rddin | rddout | rdkey | rdmode | rdksk | rdksc | rdksd | wrdin | wrkey | done => cases h

/-- A read starts nothing. -/
theorem startsOperation_of_isRead {i : Instr} (h : i.isRead = true) : i.startsOperation = false := by
  cases i with
  | rddin | rddout | rdkey | rdmode | rdksk | rdksc | rdksd => rfl
  | wrdin | wrkey | dec | enc | genkey | done | keysched => cases h

/-- A read changes the answer only. -/
theorem exec_read {i : Instr} {s t : State} (hi : i.isRead = true) (h : exec i s = .next t) :
    ∃ a, t = s.withAnswer (some a) := by
  rcases exec_cases h with ⟨_, hread⟩ | ⟨_, v, rfl, _⟩ | ⟨_, v, rfl, _⟩ | ⟨_, rfl, _⟩ | ⟨_, hstart, _⟩
  · exact hread
  · cases hi
  · cases hi
  · cases hi
  · simp [startsOperation_of_isRead hi] at hstart

/-- Settles O11: a read does not look at the answer it changes, a data write writes the value already held, and the code a
command leaves in `MODE` is a busy one. -/
theorem readsHaveNoSideEffect : Obligations.ReadsHaveNoSideEffect := by
  intro s t
  refine ⟨fun i hi h => ?_, fun v h => ?_, fun v h => ?_, fun i hi h => ?_⟩
  · obtain ⟨a, rfl⟩ := exec_read hi h
    exact ⟨rfl, rfl, (exec_withAnswer i s _).trans h⟩
  · obtain ⟨hm, rfl⟩ := whenIdle_next h
    exact whenIdle_idle _ hm
  · obtain ⟨hm, rfl⟩ := whenIdle_next h
    exact whenIdle_idle _ hm
  · obtain ⟨c, hc, he⟩ := exec_eq_acceptCommand hi
    rw [he] at h
    obtain ⟨_, rfl⟩ := acceptCommand_next h
    rw [he]
    exact whenIdle_busy _ hc

/-! ### The turns, the answer and the block agent's next step -/

/-- The block agent answers no one and takes no turn. -/
theorem blockStep_rdata_turns {s t : State} (h : blockStep s = .next t) : t.rdata = s.rdata ∧ t.turns = s.turns := by
  rcases blockStep_cases h with ⟨_, rfl⟩ | ⟨_, _, rfl⟩ | ⟨_, _, rfl⟩ | ⟨_, _, _, rfl⟩ | ⟨_, _, rfl⟩ | ⟨_, _, rfl⟩ |
    ⟨_, _, _, rfl⟩ | ⟨_, _, rfl⟩ <;> exact ⟨rfl, rfl⟩

theorem blockRun_rdata_turns {n : Nat} {s t : State} (h : blockRun n s = .next t) :
    t.rdata = s.rdata ∧ t.turns = s.turns := by
  induction n generalizing s with
  | zero =>
    cases h
    exact ⟨rfl, rfl⟩
  | succ n ih =>
    obtain ⟨u, hu, hr⟩ := blockRun_succ_next h
    obtain ⟨hrdata, hturns⟩ := blockStep_rdata_turns hu
    obtain ⟨ihr, iht⟩ := ih hr
    exact ⟨ihr.trans hrdata, iht.trans hturns⟩

theorem exec_turns {i : Instr} {s t : State} (h : exec i s = .next t) : t.turns = s.turns := by
  rcases exec_cases h with ⟨_, a, rfl⟩ | ⟨_, v, _, rfl⟩ | ⟨_, v, _, rfl⟩ | ⟨_, _, rfl⟩ | ⟨_, _, c, _, rfl⟩ <;> rfl

/-- A step takes the first of the turns, whatever it is. -/
theorem step_turns {s t : State} (h : step s = .next t) : t.turns = s.turns.tail := by
  rcases step_cases s with ⟨_, h0, e⟩ | ⟨_, rest, h0, e⟩ | ⟨_, w, rest, i, h0, _, e⟩ | ⟨_, w, rest, x, h0, _, e⟩ |
    ⟨data, rest, h0, e⟩ | ⟨x, _, _, e⟩ <;> rw [e] at h
  · rw [(blockStep_rdata_turns h).2, h0, List.tail_nil]
  · rw [(blockStep_rdata_turns h).2, h0, State.withTurns_turns, List.tail_cons]
  · rw [h0, List.tail_cons]
    rcases markRefusal_next h with hx | ⟨_, _, rfl⟩
    · exact exec_turns hx
    · rfl
  · cases h
    simp [h0]
  · cases h
    simp [h0]
  · cases h
    rfl

/-- A run of `n` steps takes the first `n` turns. -/
theorem run_turns {n : Nat} {s t : State} (h : run n s = .next t) : t.turns = s.turns.drop n := by
  induction n generalizing s with
  | zero =>
    cases h
    rfl
  | succ n ih =>
    obtain ⟨u, hu, hr⟩ := run_succ_next h
    rw [ih hr, step_turns hu, List.drop_tail]

/-- In a pair of R18 the block agent's step goes on. -/
theorem exists_blockStep_next {s : State} (h : s.legalPair) : ∃ t, blockStep s = .next t := by
  cases hb : blockStep s with
  | next t => exact ⟨t, rfl⟩
  | fault f => exact absurd hb (blockStep_of_legalPair h f)
  | refused r => exact absurd hb (blockStep_not_refused s r)

/-- On a busy core the one transaction performed is a read. -/
theorem exec_busy {i : Instr} {s t : State} (hm : s.mode ≠ 3) (h : exec i s = .next t) :
    ∃ a, t = s.withAnswer (some a) := by
  rcases exec_cases h with ⟨_, hread⟩ | ⟨h3, _⟩ | ⟨h3, _⟩ | ⟨h3, _⟩ | ⟨h3, _⟩
  · exact hread
  all_goals exact absurd h3 hm

/-! ### An operation in progress -/

/-- How many block steps the operation of a code of `MODE` takes: the rows of the table of R18. -/
def opSteps (m : BitVec 3) : Nat :=
  if m = 0 ∨ m = 1 then 18 else if m = 2 then 1 else if m = 4 then 17 else 0

/-- The literals are in the form `simp` gives them. -/
@[simp] theorem opSteps_genkey : opSteps 2#3 = 1 := rfl
@[simp] theorem opSteps_idle : opSteps 3#3 = 0 := rfl
@[simp] theorem opSteps_keysched : opSteps 4#3 = 17 := rfl

theorem opSteps_cipher {s : State} (h : s.cipherBusy) : opSteps s.mode = 18 := if_pos h

theorem opSteps_le (m : BitVec 3) : opSteps m ≤ 18 := by
  revert m
  decide

/-- A block step that is not the operation's last counts in `RND` and leaves `MODE`. -/
theorem blockStep_not_last {s t : State} (h : blockStep s = .next t) (hn : s.rnd.toNat + 1 < opSteps s.mode) :
    t.mode = s.mode ∧ t.rnd.toNat = s.rnd.toNat + 1 := by
  rcases blockStep_cases h with ⟨hm, rfl⟩ | ⟨hm, _, rfl⟩ | ⟨_, h0, rfl⟩ | ⟨_, _, h16, rfl⟩ | ⟨hc, h17, rfl⟩ |
    ⟨_, h0, rfl⟩ | ⟨_, _, h16, rfl⟩ | ⟨hm, h16, rfl⟩
  · simp [hm] at hn
  · simp [hm] at hn
  · exact ⟨rfl, by rw [h0]; rfl⟩
  · exact ⟨rfl, toNat_rnd_succ h16⟩
  · simp [opSteps_cipher hc, h17] at hn
  · exact ⟨rfl, by rw [h0]; rfl⟩
  · exact ⟨rfl, toNat_rnd_succ h16.le⟩
  · simp [hm, h16] at hn

/-- `t` is what has become of the operation pending in `s` after `n` block steps, none of them its last, whatever the host
has read in between: the half-done operation is sound, and of what the host can read only `KS` during KEYSCHED differs. -/
structure InProgress (s : State) (n : Nat) (t : State) : Prop where
  sound : Sound t
  rnd : t.rnd.toNat = n
  mode : t.mode = s.mode
  key : t.key = s.key
  din : t.din = s.din
  dout : t.dout = s.dout
  ks : s.mode ≠ 4 → t.ks = s.ks
  refusal : t.refusal = s.refusal
  draws : t.draws = s.draws

section
variable {s t u : State} {n : Nat}

/-- Neither the answer nor the turns to come are the operation's. -/
theorem InProgress.withAnswer (h : InProgress s n t) (a : Option Block) : InProgress s n (t.withAnswer a) :=
  { h with sound := h.sound.withAnswer a }

theorem InProgress.withTurns (h : InProgress s n t) (ts : List Turn) : InProgress s n (t.withTurns ts) :=
  { h with sound := h.sound.withTurns ts }

/-- The direction of an operation is that of the command, and stands. -/
theorem InProgress.direction (h : InProgress s n t) : t.direction = s.direction := by
  rw [State.direction, h.mode, State.direction]

theorem InProgress.cipherBusy (h : InProgress s n t) (hc : s.cipherBusy) : t.cipherBusy := by
  rwa [State.cipherBusy, h.mode]

/-- A pending operation has taken no step. -/
theorem inProgress_pending (hl : s.legalPair) (h0 : s.rnd = 0) : InProgress s 0 s where
  sound := sound_of_rnd_zero hl h0
  rnd := by rw [h0]; rfl
  mode := rfl
  key := rfl
  din := rfl
  dout := rfl
  ks := fun _ => rfl
  refusal := rfl
  draws := rfl

theorem InProgress.after_blockStep (h : InProgress s n t) (hn : n + 1 < opSteps s.mode) (hb : blockStep t = .next u) :
    InProgress s (n + 1) u := by
  obtain ⟨hmode, hrnd⟩ := blockStep_not_last hb (by rwa [h.rnd, h.mode])
  have hbusy : t.mode ≠ 3 := fun h3 => by simp [← h.mode, h3] at hn
  have hgenkey : t.mode ≠ 2 := fun h2 => by simp [← h.mode, h2] at hn
  have hu : u.mode ≠ 3 := by rwa [hmode]
  have frame : BlockFrame t u := blockStep_frame hb
  exact {
    sound := blockStep_sound h.sound hb
    rnd := by rw [hrnd, h.rnd]
    mode := hmode.trans h.mode
    key := (frame.key.resolve_right fun hx => hgenkey hx.1).trans h.key
    din := frame.din.trans h.din
    dout := (frame.dout.resolve_right fun hx => hu hx.2.2).trans h.dout
    ks := fun h4 => (frame.ks.resolve_right (by rwa [h.mode])).trans (h.ks h4)
    refusal := frame.refusal.trans h.refusal
    draws := (frame.draws.resolve_right hgenkey).trans h.draws }

/-- Every number of block steps that does not complete the operation is taken. -/
theorem exists_blockRun_inProgress (hl : s.legalPair) (h0 : s.rnd = 0) (hn : n < opSteps s.mode) :
    ∃ t, blockRun n s = .next t ∧ InProgress s n t := by
  induction n with
  | zero => exact ⟨s, rfl, inProgress_pending hl h0⟩
  | succ n ih =>
    obtain ⟨t, hrun, ht⟩ := ih (by omega)
    obtain ⟨u, hu⟩ := exists_blockStep_next ht.sound.legal
    exact ⟨u, blockRun_snoc hrun hu, ht.after_blockStep hn hu⟩

/-- A step of the machine that is no reset and no refusal: the block agent's counts, the host's is a read. -/
theorem InProgress.after_step {x : Turn} {rest : List Turn} (h : InProgress s n t) (hturns : t.turns = x :: rest)
    (hx : x.isReset = false) (hn : n + [x].countP Turn.isBlock < opSteps s.mode) (hstep : step t = .next u)
    (hu : u.refusal = none) (hr : t.refusal = none) : InProgress s (n + [x].countP Turn.isBlock) u := by
  cases x with
  | block =>
    rw [step_block hr hturns] at hstep
    exact (h.withTurns rest).after_blockStep hn hstep
  | host w =>
    have hbusy : t.mode ≠ 3 := fun h3 => by simp [← h.mode, h3] at hn
    rw [step_host hr hturns] at hstep
    rcases markRefusal_next hstep with hperformed | ⟨r, _, rfl⟩
    · cases hd : decode w with
      | ok i =>
        rw [hostStep_ok hd] at hperformed
        obtain ⟨a, rfl⟩ := exec_busy (s := t.withTurns rest) hbusy hperformed
        exact (h.withTurns rest).withAnswer _
      | error e =>
        rw [hostStep_error hd] at hperformed
        cases hperformed
    · cases hu
  | reset data => cases hx

/-- A core is refused until a reset: before a step that is none and ends not refused it was not. -/
theorem refusal_of_step {x : Turn} {rest : List Turn} (hturns : t.turns = x :: rest) (hx : x.isReset = false)
    (hstep : step t = .next u) (hu : u.refusal = none) : t.refusal = none := by
  refine (step_agent_cases hstep (fun data rest' h => ?_) hu).1
  obtain ⟨rfl, _⟩ := List.cons.inj (hturns.symm.trans h)
  cases hx

/-- Under whatever turns, if none is a reset and no word is refused, a pending operation is in progress as long as its
last step has not come (R41, R198). -/
theorem inProgress_run {ts rest : List Turn} (hl : s.legalPair) (h0 : s.rnd = 0)
    (hreset : ∀ u ∈ ts, u.isReset = false) (hn : ts.countP Turn.isBlock < opSteps s.mode)
    (hrun : run ts.length (s.withTurns (ts ++ rest)) = .next t) (ht : t.refusal = none) :
    InProgress s (ts.countP Turn.isBlock) t := by
  induction ts using List.reverseRecOn generalizing t rest with
  | nil =>
    cases hrun
    exact (inProgress_pending hl h0).withTurns rest
  | append_singleton ts x ih =>
    rw [List.length_append, List.append_assoc] at hrun
    rw [List.countP_append] at hn ⊢
    obtain ⟨v, hv, hstep⟩ := run_snoc_next hrun
    have hturns : v.turns = x :: rest := by simpa using run_turns hv
    have hx : x.isReset = false := hreset x (by simp)
    have hr : v.refusal = none := refusal_of_step hturns hx hstep ht
    have hp : InProgress s (ts.countP Turn.isBlock) v :=
      ih (fun u hu => hreset u (List.mem_append_left _ hu)) (by omega) hv hr
    exact hp.after_step hturns hx hn hstep ht hr

end

/-! ### The last step -/

/-- The Final step of a sound cipher operation writes `PROCESS` of the block and the schedule (R139, R140). -/
theorem Sound.blockStep_final {s : State} (h : Sound s) (hc : s.cipherBusy) (h17 : s.rnd.toNat = 17) :
    blockStep s = .next (s.withDout (process s.din s.ks s.direction)).finish := by
  have hrnd : s.rnd = 17 := BitVec.eq_of_toNat_eq h17
  have hlr : (s.l, s.r) = feistelState s.din s.ks s.direction 16 := by
    simpa [hrnd] using h.cipher hc
  rw [blockStep_cipher hc]
  simp [cipherStep, cipherFinal, process, hrnd, hlr]

/-- The sixteenth KS-Round step of a sound KEYSCHED leaves the schedule of `KEY` (R99, R100). -/
theorem Sound.blockStep_lastRound {s : State} (h : Sound s) (hm : s.mode = 4) (h16 : s.rnd.toNat = 16) :
    ∃ c d, blockStep s = .next ((s.withKeyHalves c d).withKs (keyschedFn s.key)).finish := by
  have hks : (ksRoundWrites s 16).ks = keyschedFn s.key :=
    (scheduleDone_ksRoundWrites (h.scheduleDone hm h16) (by decide)).ks_eq
  have h0 : s.rnd ≠ 0 := fun h0 => by simp [h0] at h16
  refine ⟨rotl28 s.c (shiftAt 16), rotl28 s.d (shiftAt 16), ?_⟩
  rw [← hks, blockStep_keysched hm, keyschedStep, if_neg h0, if_pos h16.le, ksRound, if_neg h16.not_lt, h16]
  rfl

/-! ### The stepwise form and the one-step form -/

theorem blockAtomic_cipher {s : State} (h : s.cipherBusy) :
    blockAtomic s = .next ((s.withDout (process s.din s.ks s.direction)).withMode 3) := by
  rcases h with h | h <;> simp [blockAtomic, State.direction, decAtomic, encAtomic, h]

theorem blockAtomic_genkey {s : State} (h : s.mode = 2) : blockAtomic s = .next (genkeyEffect s) := by
  simp [blockAtomic, h]

theorem blockAtomic_idle {s : State} (h : s.mode = 3) : blockAtomic s = .next s := by
  simp [blockAtomic, h]

theorem blockAtomic_keysched {s : State} (h : s.mode = 4) : blockAtomic s = .next (keyschedAtomic s) := by
  simp [blockAtomic, h]

/-- Two states agree in all but `L`, `R`, `C`, `D` when they agree in each other field. -/
theorem hostView_eq_iff {s t : State} : s.hostView = t.hostView ↔
    s.mode = t.mode ∧ s.rnd = t.rnd ∧ s.key = t.key ∧ s.din = t.din ∧ s.dout = t.dout ∧ s.ks = t.ks ∧
      s.refusal = t.refusal ∧ s.rdata = t.rdata ∧ s.turns = t.turns ∧ s.draws = t.draws := by
  simp [State.hostView]

/-- All its block steps, one after the other, do what the one-step form does at once, in all but `L`, `R`, `C`, `D`
(R37, R100, R140, R152). -/
theorem blockRun_opSteps_hostView {s : State} (hl : s.legalPair) (h0 : s.rnd = 0) :
    ∃ t u, blockRun (opSteps s.mode) s = .next t ∧ blockAtomic s = .next u ∧ t.hostView = u.hostView := by
  have hlegal := hl
  rcases hl with ⟨hm, _⟩ | ⟨hc, _⟩ | ⟨hm, _⟩ | ⟨hm, _⟩
  · exact ⟨s, s, by rw [hm]; rfl, blockAtomic_idle hm, rfl⟩
  · obtain ⟨v, hrun, hv⟩ := exists_blockRun_inProgress (n := 17) hlegal h0 (by simp [opSteps_cipher hc])
    obtain ⟨hrdata, hturns⟩ := blockRun_rdata_turns hrun
    have hks : v.ks = s.ks := hv.ks hc.mode_ne_four
    have hlast := hv.sound.blockStep_final (hv.cipherBusy hc) hv.rnd
    refine ⟨_, _, by rw [opSteps_cipher hc]; exact blockRun_snoc hrun hlast, blockAtomic_cipher hc, ?_⟩
    simp [hostView_eq_iff, h0, hv.direction, hv.key, hv.din, hks, hv.refusal, hv.draws, hrdata, hturns]
  · obtain ⟨v, hrun, hv⟩ := exists_blockRun_inProgress (n := 16) hlegal h0 (by simp [hm])
    obtain ⟨hrdata, hturns⟩ := blockRun_rdata_turns hrun
    obtain ⟨c, d, hlast⟩ := hv.sound.blockStep_lastRound (hv.mode.trans hm) hv.rnd
    refine ⟨_, _, by rw [hm]; exact blockRun_snoc hrun hlast, blockAtomic_keysched hm, ?_⟩
    simp [hostView_eq_iff, keyschedAtomic, h0, hv.key, hv.din, hv.dout, hv.refusal, hv.draws, hrdata, hturns]
  · have hstep : blockStep s = .next (genkeyEffect s) := by rw [blockStep_genkey hm, genkeyStep, if_pos h0]
    exact ⟨_, _, by rw [hm]; exact blockRun_snoc rfl hstep, blockAtomic_genkey hm, rfl⟩

/-- Each of the five codes with `RND = 0` is a row of R18. -/
theorem legalPair_of_rnd_zero {s : State} (hm : s.mode.toNat ≤ 4) (h0 : s.rnd = 0) : s.legalPair := by
  rcases mode_cases s.mode with h | h | h | h | h | h
  · exact .inr (.inl ⟨.inl h, by simp [h0]⟩)
  · exact .inr (.inl ⟨.inr h, by simp [h0]⟩)
  · exact .inr (.inr (.inr ⟨h, h0⟩))
  · exact .inl ⟨h, h0⟩
  · exact .inr (.inr (.inl ⟨h, by simp [h0]⟩))
  · omega

/-- Settles O41: the number is that of the operation's block steps, and before the last it is in progress. -/
theorem stepwiseRefinesAtomic : Obligations.StepwiseRefinesAtomic := by
  intro s hm h0
  have hl : s.legalPair := legalPair_of_rnd_zero hm h0
  obtain ⟨t, u, ht, hu, hview⟩ := blockRun_opSteps_hostView hl h0
  refine ⟨opSteps s.mode, opSteps_le _, t, u, ht, hu, hview, fun m hlt => ?_⟩
  obtain ⟨v, hrun, hv⟩ := exists_blockRun_inProgress hl h0 hlt
  exact ⟨v, hrun, hv.mode, hv.key, hv.din, hv.dout, hv.ks⟩

/-! ### An operation under whatever the host issues -/

/-- Settles O42: the operation is in progress after the turns, and their successor is the Final step. -/
theorem interleavingCannotChangeCipher : Obligations.InterleavingCannotChangeCipher := by
  intro s t ts hc h0 hreset hcount hrun ht
  have hc : s.cipherBusy := hc
  have hl : s.legalPair := .inr (.inl ⟨hc, by simp [h0]⟩)
  have hlt : ts.countP Turn.isBlock < opSteps s.mode := by rw [opSteps_cipher hc]; omega
  have hp : InProgress s (ts.countP Turn.isBlock) t := inProgress_run hl h0 hreset hlt hrun ht
  have hks : t.ks = s.ks := hp.ks hc.mode_ne_four
  refine ⟨hp.mode, hp.rnd, hp.key, hp.din, hp.dout, hks, hp.draws, fun h17 => ?_⟩
  have hturns : t.turns = [.block] := by simpa using run_turns hrun
  have hfinal := (hp.withTurns []).sound.blockStep_final ((hp.withTurns []).cipherBusy hc) (hp.rnd.trans h17)
  calc step t
      = blockStep (t.withTurns []) := step_block ht hturns
    _ = .next ((t.withTurns []).withDout (process t.din t.ks t.direction)).finish := hfinal
    _ = .next ((t.withTurns []).withDout (process s.din s.ks s.direction)).finish := by
      rw [hp.din, hks, hp.direction]

/-- Settles O43: the operation is in progress after the turns, and their successor is the sixteenth KS-Round step. -/
theorem interleavingCannotChangeKeySched : Obligations.InterleavingCannotChangeKeySched := by
  intro s t ts hm h0 hreset hcount hrun ht
  have hl : s.legalPair := .inr (.inr (.inl ⟨hm, by simp [h0]⟩))
  have hlt : ts.countP Turn.isBlock < opSteps s.mode := by rw [hm]; exact Nat.lt_succ_of_le hcount
  have hp : InProgress s (ts.countP Turn.isBlock) t := inProgress_run hl h0 hreset hlt hrun ht
  refine ⟨hp.mode.trans hm, hp.rnd, hp.key, hp.din, hp.dout, hp.draws, fun h16 => ?_⟩
  have hturns : t.turns = [.block] := by simpa using run_turns hrun
  obtain ⟨c, d, hlast⟩ := (hp.withTurns []).sound.blockStep_lastRound (hp.mode.trans hm) (hp.rnd.trans h16)
  rw [step_block ht hturns]
  exact ⟨_, hlast, rfl, rfl, congrArg keyschedFn hp.key, hp.key, hp.din, hp.dout⟩

end Sys2Proof.Machine
end

section
/-! PROOFS. The encoding (30_encoding.md): an H word is its first digit and its data, `decode` goes by the kind of the first
digit, and from the kinds follow the words of each instruction (`decode_ok_iff`) and the refused words
(`decode_error_iff`). -/

namespace Sys2Proof

/-! ### An H word, its digit and its data -/

@[simp] theorem digit_hword (d : BitVec 4) (x : Block) : (hword d x).digit = d :=
  BitVec.extractLsb'_append_eq_left

@[simp] theorem data_hword (d : BitVec 4) (x : Block) : (hword d x).data = x :=
  BitVec.extractLsb'_append_eq_right

theorem hword_digit_data (w : HWord) : hword w.digit w.data = w :=
  (BitVec.extractLsb'_append_extractLsb'_eq_extractLsb' rfl).trans BitVec.extractLsb'_eq_self

theorem hword_eq_iff {d : BitVec 4} {x : Block} {w : HWord} : hword d x = w ↔ w.digit = d ∧ w.data = x := by
  constructor
  · rintro rfl
    exact ⟨digit_hword d x, data_hword d x⟩
  · rintro ⟨rfl, rfl⟩
    exact hword_digit_data w

theorem hword_inj {d d' : BitVec 4} {x x' : Block} : hword d x = hword d' x' ↔ d = d' ∧ x = x' := by
  rw [hword_eq_iff, digit_hword, data_hword, @eq_comm _ d', @eq_comm _ x']

theorem idx_eq_setWidth_data (w : HWord) : w.idx = w.data.setWidth 5 := by
  apply BitVec.eq_of_toNat_eq
  simp [HWord.idx, HWord.data]

theorem code_eq_setWidth_data (w : HWord) : w.code = w.data.setWidth 3 := by
  apply BitVec.eq_of_toNat_eq
  simp [HWord.code, HWord.data]

theorem zeroAboveIdx_iff (w : HWord) : w.zeroAboveIdx = true ↔ w.data >>> 5 = 0 := by
  simp [HWord.zeroAboveIdx, HWord.data, BitVec.toNat_eq, Nat.shiftRight_eq_div_pow]
  omega

theorem zeroAboveCode_iff (w : HWord) : w.zeroAboveCode = true ↔ w.data >>> 3 = 0 := by
  simp [HWord.zeroAboveCode, HWord.data, BitVec.toNat_eq, Nat.shiftRight_eq_div_pow]
  omega

/-- Data with zeros above the index is the index. -/
theorem eq_setWidth_idx_iff (x : Block) (i : BitVec 5) : x = i.setWidth 64 ↔ x >>> 5 = 0 ∧ i = x.setWidth 5 := by
  bv_omega

/-- Data with zeros above the code is the code. -/
theorem eq_setWidth_code_iff (x : Block) (c : BitVec 3) : x = c.setWidth 64 ↔ x >>> 3 = 0 ∧ c = x.setWidth 3 := by
  bv_omega

/-! ### What each part of the decoder answers -/

theorem decodeRegRead_ok {w : HWord} {i j : Instr} (h : decodeRegRead w i = .ok j) : i = j ∧ w.data = 0 := by
  rw [decodeRegRead] at h
  split at h
  · cases h
    exact ⟨rfl, ‹_›⟩
  · cases h

theorem decodeRegRead_error_iff {w : HWord} {i : Instr} {e : WordRefusal} :
    decodeRegRead w i = .error e ↔ e = .nonZeroReserved ∧ w.data ≠ 0 := by
  by_cases h0 : w.data = 0#64
  · simp [decodeRegRead, h0]
  · simp [decodeRegRead, h0, @eq_comm _ e]

/-- The three answers to a `KS` read, reserved part first (R54). -/
theorem decodeKsRead_eq (w : HWord) (mk : BitVec 5 → Instr) :
    decodeKsRead w mk =
      if w.data >>> 5 = 0 then
        if (w.data.setWidth 5).toNat ≤ 16 then .ok (mk (w.data.setWidth 5)) else .error .indexOutOfRange
      else .error .nonZeroReserved := by
  simp only [decodeKsRead, zeroAboveIdx_iff, idx_eq_setWidth_data, indexOk, decide_eq_true_eq]

theorem decodeKsRead_ok {w : HWord} {mk : BitVec 5 → Instr} {j : Instr} (h : decodeKsRead w mk = .ok j) :
    ∃ i : BitVec 5, mk i = j ∧ i.toNat ≤ 16 ∧ w.data = i.setWidth 64 := by
  rw [decodeKsRead_eq] at h
  split at h
  · split at h
    · cases h
      exact ⟨_, rfl, ‹_›, (eq_setWidth_idx_iff _ _).mpr ⟨‹_›, rfl⟩⟩
    · cases h
  · cases h

theorem decodeKsRead_error_iff {w : HWord} {mk : BitVec 5 → Instr} {e : WordRefusal} :
    decodeKsRead w mk = .error e ↔
      (e = .nonZeroReserved ∧ w.data >>> 5 ≠ 0) ∨
      (e = .indexOutOfRange ∧ w.data >>> 5 = 0 ∧ 17 ≤ (w.data.setWidth 5).toNat) := by
  rw [decodeKsRead_eq]
  by_cases h0 : w.data >>> 5 = 0#64
  · by_cases hi : (w.data.setWidth 5).toNat ≤ 16
    · simp [h0, hi, Nat.not_le.mpr (Nat.lt_succ_of_le hi), -BitVec.toNat_setWidth]
    · simp [h0, hi, Nat.succ_le_of_lt (Nat.lt_of_not_le hi), @eq_comm _ e, -BitVec.toNat_setWidth]
  · simp [h0, @eq_comm _ e]

theorem decodeCode_reserved {c : BitVec 3} (h : 5 ≤ c.toNat) : decodeCode c = .error .reservedCommand := by
  have hc : c = 5 ∨ c = 6 ∨ c = 7 := by bv_omega
  rcases hc with rfl | rfl | rfl <;> rfl

/-- A code names a command, or is one of the reserved 5 to 7 (R52). -/
theorem decodeCode_cases (c : BitVec 3) :
    (c.toNat ≤ 4 ∧ ∃ i, decodeCode c = .ok i ∧ i.wf = true ∧ encode i = hword 0xB (c.setWidth 64)) ∨
    (5 ≤ c.toNat ∧ decodeCode c = .error .reservedCommand) := by
  rcases Machine.mode_cases c with rfl | rfl | rfl | rfl | rfl | hc
  · exact .inl ⟨by decide, .dec, rfl, rfl, rfl⟩
  · exact .inl ⟨by decide, .enc, rfl, rfl, rfl⟩
  · exact .inl ⟨by decide, .genkey, rfl, rfl, rfl⟩
  · exact .inl ⟨by decide, .done, rfl, rfl, rfl⟩
  · exact .inl ⟨by decide, .keysched, rfl, rfl, rfl⟩
  · exact .inr ⟨hc, decodeCode_reserved hc⟩

theorem decodeCommand_ok {w : HWord} {i : Instr} (h : decodeCommand w = .ok i) :
    i.wf = true ∧ encode i = hword 0xB w.data := by
  rw [decodeCommand] at h
  split at h
  case isFalse => cases h
  case isTrue hz =>
    have hdata : w.data = w.code.setWidth 64 :=
      (eq_setWidth_code_iff _ _).mpr ⟨(zeroAboveCode_iff w).mp hz, code_eq_setWidth_data w⟩
    rcases decodeCode_cases w.code with ⟨_, j, hj, hwf, henc⟩ | ⟨_, he⟩
    · rw [hj] at h
      cases h
      exact ⟨hwf, by rw [henc, hdata]⟩
    · rw [he] at h
      cases h

theorem decodeCommand_error_iff {w : HWord} {e : WordRefusal} :
    decodeCommand w = .error e ↔
      (e = .nonZeroReserved ∧ w.data >>> 3 ≠ 0) ∨
      (e = .reservedCommand ∧ w.data >>> 3 = 0 ∧ 5 ≤ (w.data.setWidth 3).toNat) := by
  simp only [decodeCommand, zeroAboveCode_iff, ← code_eq_setWidth_data]
  by_cases h0 : w.data >>> 3 = 0#64
  · rcases decodeCode_cases w.code with ⟨hc, j, hj, _⟩ | ⟨hc, he⟩
    · simp [hj, h0, Nat.not_le.mpr (Nat.lt_succ_of_le hc)]
    · simp [he, h0, hc, @eq_comm _ e]
  · simp [h0, @eq_comm _ e]

/-! ### The kinds of first digit (R53) -/

/-- A register read, a `KS` read, a data write, a command, a reserved select, a write of what is read-only. -/
theorem digit_kinds (d : BitVec 4) :
    d.toNat ≤ 3 ∨ (5 ≤ d.toNat ∧ d.toNat ≤ 7) ∨ (d = 0x8 ∨ d = 0xA) ∨ d = 0xB ∨ (d = 0x4 ∨ d = 0xC) ∨
      d ∈ [0x9, 0xD, 0xE, 0xF] := by
  revert d
  decide

theorem decode_regRead {w : HWord} (h : w.digit.toNat ≤ 3) :
    ∃ i, i.wf = true ∧ encode i = hword w.digit 0 ∧ decode w = decodeRegRead w i := by
  have hd : w.digit = 0x0 ∨ w.digit = 0x1 ∨ w.digit = 0x2 ∨ w.digit = 0x3 := by bv_omega
  rcases hd with hd | hd | hd | hd <;> simp only [decode, hd]
  · exact ⟨.rddin, rfl, rfl, rfl⟩
  · exact ⟨.rddout, rfl, rfl, rfl⟩
  · exact ⟨.rdkey, rfl, rfl, rfl⟩
  · exact ⟨.rdmode, rfl, rfl, rfl⟩

theorem decode_ksRead {w : HWord} (h5 : 5 ≤ w.digit.toNat) (h7 : w.digit.toNat ≤ 7) :
    ∃ mk : BitVec 5 → Instr,
      (∀ i, (mk i).wf = indexOk i ∧ encode (mk i) = hword w.digit (i.setWidth 64)) ∧ decode w = decodeKsRead w mk := by
  have hd : w.digit = 0x5 ∨ w.digit = 0x6 ∨ w.digit = 0x7 := by bv_omega
  rcases hd with hd | hd | hd <;> simp only [decode, hd]
  · exact ⟨.rdksk, fun _ => ⟨rfl, rfl⟩, rfl⟩
  · exact ⟨.rdksc, fun _ => ⟨rfl, rfl⟩, rfl⟩
  · exact ⟨.rdksd, fun _ => ⟨rfl, rfl⟩, rfl⟩

theorem decode_write {w : HWord} (h : w.digit = 0x8 ∨ w.digit = 0xA) :
    ∃ i, i.wf = true ∧ encode i = hword w.digit w.data ∧ decode w = .ok i := by
  rcases h with hd | hd <;> simp only [decode, hd]
  · exact ⟨.wrdin w.data, rfl, rfl, rfl⟩
  · exact ⟨.wrkey w.data, rfl, rfl, rfl⟩

theorem decode_command {w : HWord} (h : w.digit = 0xB) : decode w = decodeCommand w := by
  simp [decode, h]

theorem decode_reservedSelect {w : HWord} (h : w.digit = 0x4 ∨ w.digit = 0xC) : decode w = .error .reservedSelect := by
  rcases h with hd | hd <;> simp [decode, hd]

theorem decode_readOnlyWrite {w : HWord} (h : w.digit ∈ [0x9, 0xD, 0xE, 0xF]) : decode w = .error .readOnlyWrite := by
  simp only [List.mem_cons, List.not_mem_nil, or_false] at h
  rcases h with hd | hd | hd | hd <;> simp [decode, hd]

/-! ### The words of each instruction -/

/-- Settles O1: the digit and the data of an H word are those it was built from. -/
theorem decodeInvertsEncode : Obligations.DecodeInvertsEncode := by
  intro i h
  cases i with
  | rddin | rddout | rdkey | rdmode | dec | enc | genkey | done | keysched => rfl
  | wrdin v | wrkey v => simp [decode, encode]
  | rdksk i | rdksc i | rdksd i =>
    obtain ⟨hz, hidx⟩ := (eq_setWidth_idx_iff (i.setWidth 64) i).mp rfl
    have hi : i.toNat ≤ 16 := of_decide_eq_true h
    simp only [decode, encode, digit_hword, decodeKsRead_eq, data_hword, ← hidx, if_pos hz, if_pos hi]
    rfl

/-- Settles O2: by the kind of the first digit. -/
theorem encodeInvertsDecode : Obligations.EncodeInvertsDecode := by
  intro w i h
  suffices i.wf = true ∧ encode i = hword w.digit w.data by rwa [hword_digit_data] at this
  rcases digit_kinds w.digit with hd | ⟨h5, h7⟩ | hd | hd | hd | hd
  · obtain ⟨j, hwf, henc, hdec⟩ := decode_regRead hd
    obtain ⟨rfl, h0⟩ := decodeRegRead_ok (hdec.symm.trans h)
    exact ⟨hwf, by rw [henc, h0]⟩
  · obtain ⟨mk, hmk, hdec⟩ := decode_ksRead h5 h7
    obtain ⟨idx, rfl, hidx, hdata⟩ := decodeKsRead_ok (hdec.symm.trans h)
    obtain ⟨hwf, henc⟩ := hmk idx
    exact ⟨hwf.trans (decide_eq_true hidx), by rw [henc, hdata]⟩
  · obtain ⟨j, hwf, henc, hdec⟩ := decode_write hd
    cases hdec.symm.trans h
    exact ⟨hwf, henc⟩
  · rw [hd]
    exact decodeCommand_ok ((decode_command hd).symm.trans h)
  · cases (decode_reservedSelect hd).symm.trans h
  · cases (decode_readOnlyWrite hd).symm.trans h

/-- The one word of each instruction. -/
theorem decode_ok_iff {w : HWord} {i : Instr} : decode w = .ok i ↔ i.wf = true ∧ encode i = w := by
  constructor
  · exact encodeInvertsDecode w i
  · rintro ⟨hwf, rfl⟩
    exact decodeInvertsEncode i hwf

theorem decode_ok_iff_of_encode {i : Instr} {d : BitVec 4} {x : Block} (hwf : i.wf = true) (henc : encode i = hword d x)
    (w : HWord) : decode w = .ok i ↔ w.digit = d ∧ w.data = x := by
  rw [decode_ok_iff, henc, hword_eq_iff, and_iff_right hwf]

theorem decode_ok_iff_of_index {i : Instr} {d : BitVec 4} {idx : BitVec 5} (hwf : i.wf = indexOk idx)
    (henc : encode i = hword d (idx.setWidth 64)) (w : HWord) :
    decode w = .ok i ↔ w.digit = d ∧ w.data >>> 5 = 0 ∧ idx = w.data.setWidth 5 ∧ idx.toNat ≤ 16 := by
  rw [decode_ok_iff, hwf, henc, hword_eq_iff, eq_setWidth_idx_iff, indexOk, decide_eq_true_eq]
  tauto

/-- Settles O3: a row's words are the encodings of its instructions. -/
theorem decodingFollowsTheTable : Obligations.DecodingFollowsTheTable := by
  intro w
  refine ⟨decode_ok_iff_of_encode rfl rfl w, decode_ok_iff_of_encode rfl rfl w, decode_ok_iff_of_encode rfl rfl w,
    decode_ok_iff_of_encode rfl rfl w, fun i => decode_ok_iff_of_index rfl rfl w, fun i => decode_ok_iff_of_index rfl rfl w,
    fun i => decode_ok_iff_of_index rfl rfl w, fun v => ?wrdin, fun v => ?wrkey, decode_ok_iff_of_encode rfl rfl w,
    decode_ok_iff_of_encode rfl rfl w, decode_ok_iff_of_encode rfl rfl w, decode_ok_iff_of_encode rfl rfl w,
    decode_ok_iff_of_encode rfl rfl w, ?total⟩
  case wrdin | wrkey =>
    rw [@eq_comm _ v]
    exact decode_ok_iff_of_encode rfl rfl w
  case total =>
    cases decode w with
    | ok i => exact .inl ⟨i, rfl⟩
    | error e => exact .inr ⟨e, rfl⟩

/-! ### The refused words -/

/-- The words refused for each reason, no reason before it applying (60_exceptions.md R172, R175). -/
def HWord.refusedFor (w : HWord) : WordRefusal → Prop
  | .reservedSelect => w.digit = 0x4 ∨ w.digit = 0xC
  | .readOnlyWrite => w.digit ∈ [0x9, 0xD, 0xE, 0xF]
  | .nonZeroReserved =>
    (w.digit.toNat ≤ 3 ∧ w.data ≠ 0) ∨ (5 ≤ w.digit.toNat ∧ w.digit.toNat ≤ 7 ∧ w.data >>> 5 ≠ 0) ∨
    (w.digit = 0xB ∧ w.data >>> 3 ≠ 0)
  | .indexOutOfRange =>
    5 ≤ w.digit.toNat ∧ w.digit.toNat ≤ 7 ∧ w.data >>> 5 = 0 ∧ 17 ≤ (w.data.setWidth 5).toNat
  | .reservedCommand => w.digit = 0xB ∧ w.data >>> 3 = 0 ∧ 5 ≤ (w.data.setWidth 3).toNat

theorem decode_error_of_refusedFor {w : HWord} {e : WordRefusal} (h : w.refusedFor e) : decode w = .error e := by
  cases e with
  | reservedSelect => exact decode_reservedSelect h
  | readOnlyWrite => exact decode_readOnlyWrite h
  | nonZeroReserved =>
    rcases h with ⟨hd, h0⟩ | ⟨h5, h7, h0⟩ | ⟨hd, h0⟩
    · obtain ⟨i, _, _, hdec⟩ := decode_regRead hd
      exact hdec.trans (decodeRegRead_error_iff.mpr ⟨rfl, h0⟩)
    · obtain ⟨mk, _, hdec⟩ := decode_ksRead h5 h7
      exact hdec.trans (decodeKsRead_error_iff.mpr (.inl ⟨rfl, h0⟩))
    · exact (decode_command hd).trans (decodeCommand_error_iff.mpr (.inl ⟨rfl, h0⟩))
  | indexOutOfRange =>
    obtain ⟨h5, h7, h0⟩ := h
    obtain ⟨mk, _, hdec⟩ := decode_ksRead h5 h7
    exact hdec.trans (decodeKsRead_error_iff.mpr (.inr ⟨rfl, h0⟩))
  | reservedCommand =>
    obtain ⟨hd, h0⟩ := h
    exact (decode_command hd).trans (decodeCommand_error_iff.mpr (.inr ⟨rfl, h0⟩))

/-- The refused words with their reasons, by the kind of the first digit. -/
theorem decode_error_iff {w : HWord} {e : WordRefusal} : decode w = .error e ↔ w.refusedFor e := by
  refine ⟨fun h => ?_, decode_error_of_refusedFor⟩
  rcases digit_kinds w.digit with hd | ⟨h5, h7⟩ | hd | hd | hd | hd
  · obtain ⟨i, _, _, hdec⟩ := decode_regRead hd
    obtain ⟨rfl, h0⟩ := decodeRegRead_error_iff.mp (hdec.symm.trans h)
    exact .inl ⟨hd, h0⟩
  · obtain ⟨mk, _, hdec⟩ := decode_ksRead h5 h7
    rcases decodeKsRead_error_iff.mp (hdec.symm.trans h) with ⟨rfl, h0⟩ | ⟨rfl, h0⟩
    · exact .inr (.inl ⟨h5, h7, h0⟩)
    · exact ⟨h5, h7, h0⟩
  · obtain ⟨i, _, _, hdec⟩ := decode_write hd
    cases hdec.symm.trans h
  · rcases decodeCommand_error_iff.mp ((decode_command hd).symm.trans h) with ⟨rfl, h0⟩ | ⟨rfl, h0⟩
    · exact .inr (.inr ⟨hd, h0⟩)
    · exact ⟨hd, h0⟩
  · cases (decode_reservedSelect hd).symm.trans h
    exact hd
  · cases (decode_readOnlyWrite hd).symm.trans h
    exact hd

/-- R54's list is R172's reasons without their names. -/
theorem exists_refusedFor_iff (w : HWord) :
    (∃ e, w.refusedFor e) ↔
      (w.digit ∈ [0x4, 0x9, 0xC, 0xD, 0xE, 0xF] ∨
       (w.digit.toNat ≤ 3 ∧ w.data ≠ 0) ∨
       (5 ≤ w.digit.toNat ∧ w.digit.toNat ≤ 7 ∧ (w.data >>> 5 ≠ 0 ∨ 17 ≤ (w.data.setWidth 5).toNat)) ∨
       (w.digit = 0xB ∧ (w.data >>> 3 ≠ 0 ∨ 5 ≤ (w.data.setWidth 3).toNat))) := by
  have hlist : w.digit ∈ [0x4, 0x9, 0xC, 0xD, 0xE, 0xF] ↔ w.refusedFor .reservedSelect ∨ w.refusedFor .readOnlyWrite := by
    simp only [HWord.refusedFor, List.mem_cons, List.not_mem_nil, or_false]
    tauto
  rw [hlist]
  constructor
  · rintro ⟨e, h⟩
    cases e with
    | reservedSelect => exact .inl (.inl h)
    | readOnlyWrite => exact .inl (.inr h)
    | nonZeroReserved =>
      rcases h with h | ⟨h5, h7, h0⟩ | ⟨hd, h0⟩
      · exact .inr (.inl h)
      · exact .inr (.inr (.inl ⟨h5, h7, .inl h0⟩))
      · exact .inr (.inr (.inr ⟨hd, .inl h0⟩))
    | indexOutOfRange =>
      obtain ⟨h5, h7, _, hi⟩ := h
      exact .inr (.inr (.inl ⟨h5, h7, .inr hi⟩))
    | reservedCommand =>
      obtain ⟨hd, _, hc⟩ := h
      exact .inr (.inr (.inr ⟨hd, .inr hc⟩))
  · rintro ((h | h) | h | ⟨h5, h7, h⟩ | ⟨hd, h⟩)
    · exact ⟨.reservedSelect, h⟩
    · exact ⟨.readOnlyWrite, h⟩
    · exact ⟨.nonZeroReserved, .inl h⟩
    · by_cases h0 : w.data >>> 5 = 0
      · exact ⟨.indexOutOfRange, h5, h7, h0, h.resolve_left (absurd h0)⟩
      · exact ⟨.nonZeroReserved, .inr (.inl ⟨h5, h7, h0⟩)⟩
    · by_cases h0 : w.data >>> 3 = 0
      · exact ⟨.reservedCommand, hd, h0, h.resolve_left (absurd h0)⟩
      · exact ⟨.nonZeroReserved, .inr (.inr ⟨hd, h0⟩)⟩

/-- Settles O4: the refused words by their reasons, and a host turn with one sets the mark. -/
theorem refusedWordsExactly : Obligations.RefusedWordsExactly := by
  refine fun w => ⟨?_, ?_⟩
  · simp only [decode_error_iff]
    exact exists_refusedFor_iff w
  · rintro ⟨e, he⟩ s rest hturns hr
    refine ⟨Machine.refusalOfWord e, (s.withTurns rest).lose (Machine.refusalOfWord e), ?_, rfl⟩
    rw [Machine.step_host hr hturns, Machine.hostStep_error he]
    rfl

/-! ### The rows of the opcode table -/

theorem and_fullMask (w : HWord) : w &&& 0xFFFFFFFFFFFFFFFFF = w := BitVec.and_allOnes

/-- The mask of a data write selects by the digit. -/
theorem and_writeMask_eq_iff {w : HWord} {d : BitVec 4} : w &&& 0xF0000000000000000 = hword d 0 ↔ w.digit = d := by
  rw [← hword_digit_data w, Laws.EncodesRow.write_selects, hword_inj, digit_hword, and_iff_left rfl]

theorem and_aboveIdx_eq_zero_iff (x : Block) : x &&& 0xFFFFFFFFFFFFFFE0 = 0 ↔ x >>> 5 = 0 := by
  have h : x &&& (0xFFFFFFFFFFFFFFE0 : Block) = x >>> 5 <<< 5 := (BitVec.shiftLeft_ushiftRight (x := x) (n := 5)).symm
  rw [h]
  bv_omega

/-- The mask of a `KS` read selects by the digit and the zeros above the index. -/
theorem and_ksReadMask_eq_iff {w : HWord} {d : BitVec 4} :
    w &&& 0xFFFFFFFFFFFFFFFE0 = hword d 0 ↔ w.digit = d ∧ w.data >>> 5 = 0 := by
  have hmask : hword w.digit w.data &&& 0xFFFFFFFFFFFFFFFE0 = hword w.digit (w.data &&& 0xFFFFFFFFFFFFFFE0) := by
    have h : (0xFFFFFFFFFFFFFFFE0 : HWord) = (0xF : BitVec 4) ++ (0xFFFFFFFFFFFFFFE0 : Block) := by decide
    have hd : w.digit &&& 0xF = w.digit := BitVec.and_allOnes
    rw [h, hword, hword, BitVec.and_append, hd]
  rw [← and_aboveIdx_eq_zero_iff, ← hword_inj, ← hmask, hword_digit_data]

/-- The H word of a well-formed instruction selects its row. -/
theorem encode_and_mask {i : Instr} (h : i.wf = true) : encode i &&& i.row.mask = i.row.pattern := by
  cases i with
  | rddin => exact Laws.EncodesRow.rddin h
  | rddout => exact Laws.EncodesRow.rddout h
  | rdkey => exact Laws.EncodesRow.rdkey h
  | rdmode => exact Laws.EncodesRow.rdmode h
  | rdksk i => exact Laws.EncodesRow.rdksk i h
  | rdksc i => exact Laws.EncodesRow.rdksc i h
  | rdksd i => exact Laws.EncodesRow.rdksd i h
  | wrdin v => exact Laws.EncodesRow.wrdin v h
  | wrkey v => exact Laws.EncodesRow.wrkey v h
  | dec => exact Laws.EncodesRow.dec h
  | enc => exact Laws.EncodesRow.enc h
  | genkey => exact Laws.EncodesRow.genkey h
  | done => exact Laws.EncodesRow.done h
  | keysched => exact Laws.EncodesRow.keysched h

theorem digit_of_isKsRead {j : Instr} (h : j.isKsRead = true) :
    5 ≤ (encode j).digit.toNat ∧ (encode j).digit.toNat ≤ 7 := by
  cases j with
  | rdksk i | rdksc i | rdksd i => simp [encode]
  | rddin | rddout | rdkey | rdmode | wrdin v | wrkey v | dec | enc | genkey | done | keysched => cases h

/-- A word with digit 5 to 7 is a `KS` read, and its digit gives the row. -/
theorem row_of_ksRead_digit {j : Instr} (h5 : 5 ≤ (encode j).digit.toNat) (h7 : (encode j).digit.toNat ≤ 7) :
    j.row = ⟨hword (encode j).digit 0, 0xFFFFFFFFFFFFFFFE0⟩ := by
  cases j with
  | rdksk i | rdksc i | rdksd i =>
    rw [encode, digit_hword]
    rfl
  | rddin | rddout | rdkey | rdmode | wrdin v | wrkey v | dec | enc | genkey | done | keysched =>
    simp [encode] at h5 h7

/-- A word that a `KS` read's row selects is a read of that row, or its index is above 16. -/
theorem decode_of_ksReadMask {w : HWord} {d : BitVec 4} (h5 : 5 ≤ d.toNat) (h7 : d.toNat ≤ 7)
    (h : w &&& 0xFFFFFFFFFFFFFFFE0 = hword d 0) :
    (∃ i, decode w = .ok i ∧ i.row = ⟨hword d 0, 0xFFFFFFFFFFFFFFFE0⟩) ∨
    (decode w = .error .indexOutOfRange ∧ w.digit = d) := by
  obtain ⟨rfl, h0⟩ := and_ksReadMask_eq_iff.mp h
  by_cases hi : (w.data.setWidth 5).toNat ≤ 16
  · obtain ⟨mk, hmk, hdec⟩ := decode_ksRead h5 h7
    have hdigit : (encode (mk (w.data.setWidth 5))).digit = w.digit := by rw [(hmk _).2, digit_hword]
    refine .inl ⟨mk (w.data.setWidth 5), by rw [hdec, decodeKsRead_eq, if_pos h0, if_pos hi], ?_⟩
    rw [row_of_ksRead_digit (hdigit ▸ h5) (hdigit ▸ h7), hdigit]
  · exact .inr ⟨decode_error_iff.mpr ⟨h5, h7, h0, Nat.lt_of_not_le hi⟩, rfl⟩

theorem decode_of_and_mask {w : HWord} {j : Instr} (hj : j.wf = true) (h : w &&& j.row.mask = j.row.pattern) :
    (∃ i, decode w = .ok i ∧ i.row = j.row) ∨ (decode w = .error .indexOutOfRange ∧ w.digit = (encode j).digit) := by
  by_cases hks : j.isKsRead = true
  · obtain ⟨h5, h7⟩ := digit_of_isKsRead hks
    rw [row_of_ksRead_digit h5 h7] at h ⊢
    exact decode_of_ksReadMask h5 h7 h
  · left
    cases j with
    | rddin | rddout | rdkey | rdmode | dec | enc | genkey | done | keysched =>
      exact ⟨_, decode_ok_iff.mpr ⟨hj, h.symm.trans (and_fullMask w)⟩, rfl⟩
    | wrdin v =>
      have hd : w.digit = 0x8 := and_writeMask_eq_iff.mp h
      exact ⟨.wrdin w.data, (decode_ok_iff_of_encode rfl rfl w).mpr ⟨hd, rfl⟩, rfl⟩
    | wrkey v =>
      have hd : w.digit = 0xA := and_writeMask_eq_iff.mp h
      exact ⟨.wrkey w.data, (decode_ok_iff_of_encode rfl rfl w).mpr ⟨hd, rfl⟩, rfl⟩
    | rdksk i | rdksc i | rdksd i => exact absurd rfl hks

/-- Settles O6: a decoded word is the encoding of an instruction of the row, and a refused one differs from such in the
index only, which the row's mask leaves free. -/
theorem opcodeRowsSelectTheirWords : Obligations.OpcodeRowsSelectTheirWords := by
  intro w j hj
  refine ⟨decode_of_and_mask hj, ?_⟩
  rintro (⟨i, hi, hrow⟩ | ⟨he, hd⟩)
  · obtain ⟨hwf, rfl⟩ := encodeInvertsDecode w i hi
    rw [← hrow]
    exact encode_and_mask hwf
  · obtain ⟨h5, h7, h0, _⟩ := decode_error_iff.mp he
    rw [row_of_ksRead_digit (hd ▸ h5) (hd ▸ h7)]
    exact and_ksReadMask_eq_iff.mpr ⟨hd, h0⟩

end Sys2Proof
end

section
/-! PROOFS. What the host reads (30_encoding.md R61). -/

namespace Sys2Proof.Machine

theorem ksRead_eq_getElem (ks : Vector KeySet 17) {i : Nat} (h : i < 17) : ksRead ks i = ks[i] := by
  simp [ksRead, h]

/-- Settles O10: each read is the model's answer of one register or of one field of an entry. -/
theorem readsAnswerReadData : Obligations.ReadsAnswerReadData := by
  refine fun s => ⟨rfl, rfl, rfl, rfl, fun i h hm => ?_⟩
  rw [← ksRead_eq_getElem s.ks (Nat.lt_succ_of_le h)]
  exact ⟨answerKs_readable (fun e => zext64 (subkeyImage e.k)) h hm,
    answerKs_readable (fun e => zext64 (halfImage e.c)) h hm,
    answerKs_readable (fun e => zext64 (halfImage e.d)) h hm⟩

end Sys2Proof.Machine
end

section
/-! PROOFS. `PERM` as a selection of bits (40_bitperm.md R70), its linearity (R72), and the two tables that undo each other
(R79). -/

namespace Sys2Proof.Machine

theorem desBit_xor {w : Nat} (a b : BitVec w) (p : Nat) : desBit (a ^^^ b) p = (desBit a p ^^ desBit b p) :=
  BitVec.getMsbD_xor

/-- Settles O19: DES position `i + 1` is bit `i` from the most significant end, the bit `getMsbD_perm` gives. The model's
`PERM` has it of every table, so validity (R71) is not used. -/
theorem permSelectsTableBits : Obligations.PermSelectsTableBits :=
  fun _ _ _ v hlen _ _ hi => getMsbD_perm v hlen hi

/-- Settles O20: at each output position both sides are the exclusive or of the two bits the table selects. -/
theorem permIsLinear : Obligations.PermIsLinear := by
  intro w m T a b hlen _
  refine BitVec.eq_of_getMsbD_eq fun i hi => ?_
  calc (perm m T (a ^^^ b)).getMsbD i
      = desBit (a ^^^ b) (tableRead T i) := getMsbD_perm _ hlen hi
    _ = (desBit a (tableRead T i) ^^ desBit b (tableRead T i)) := desBit_xor a b _
    _ = ((perm m T a).getMsbD i ^^ (perm m T b).getMsbD i) := by
      rw [getMsbD_perm a hlen hi, getMsbD_perm b hlen hi]
    _ = (perm m T a ^^^ perm m T b).getMsbD i := BitVec.getMsbD_xor.symm

/-- `PERM` by `U` undoes `PERM` by `T` when the entry of `T` at each position `U` names is the position of that entry
of `U`. -/
theorem perm_perm_cancel {m : Nat} {T U : List Nat} (v : BitVec m) (hT : T.length = m) (hU : U.length = m)
    (hvalid : tableValid m U = true) (hinv : ∀ i, i < m → tableRead T (tableRead U i - 1) = i + 1) :
    perm m U (perm m T v) = v := by
  refine BitVec.eq_of_getMsbD_eq fun i hi => ?_
  obtain ⟨hpos, hle⟩ := tableRead_bounds_of_tableValid hvalid (i := i) (by omega)
  calc (perm m U (perm m T v)).getMsbD i
      = (perm m T v).getMsbD (tableRead U i - 1) := getMsbD_perm _ hU hi
    _ = desBit v (tableRead T (tableRead U i - 1)) := getMsbD_perm v hT (by omega)
    _ = v.getMsbD i := by rw [hinv i hi, desBit, Nat.add_sub_cancel]

theorem finalPerm_initialPerm (v : Block) : finalPerm (initialPerm v) = v :=
  perm_perm_cancel v rfl rfl (by decide) (by decide)

theorem initialPerm_finalPerm (v : Block) : initialPerm (finalPerm v) = v :=
  perm_perm_cancel v rfl rfl (by decide) (by decide)

/-- Settles O22: IP and FP are inverse tables, checked entry by entry in both orders. -/
theorem initialAndFinalPermInverse : Obligations.InitialAndFinalPermInverse :=
  fun v => ⟨finalPerm_initialPerm v, initialPerm_finalPerm v⟩

end Sys2Proof.Machine
end

section
/-! PROOFS. The functions of the key scheduler (41_keysched.md): `ROTL28` is the library's rotation of a 28-bit value (R90),
so rotations add up (R96); a schedule is entry by entry the recurrence (R92) and depends on the key through `PC1` alone
(R94). -/

namespace Sys2Proof.Machine

/-! ### Rotation -/

theorem rotl28_eq_rotateLeft (x : KeyHalf) {n : Nat} (h : n < 28) : rotl28 x n = x.rotateLeft n :=
  (BitVec.rotateLeft_eq_rotateLeftAux_of_lt h).symm

theorem desBit_rotateLeft {w p : Nat} (x : BitVec w) (n : Nat) (hpos : 1 ≤ p) (hle : p ≤ w) :
    desBit (x.rotateLeft n) p = desBit x ((p - 1 + n) % w + 1) := by
  have hlt : p - 1 < w := by omega
  simp [desBit, BitVec.getMsbD_rotateLeft, Nat.add_comm n, hlt]

theorem rotateLeft_rotateLeft {w : Nat} (x : BitVec w) (m n : Nat) :
    (x.rotateLeft m).rotateLeft n = x.rotateLeft (m + n) := by
  refine BitVec.eq_of_getMsbD_eq fun i hi => ?_
  have hmod (k : Nat) : k % w < w := Nat.mod_lt _ (Nat.zero_lt_of_lt hi)
  simp [BitVec.getMsbD_rotateLeft, hi, hmod, Nat.add_assoc]

theorem rotateLeft_zero {w : Nat} (x : BitVec w) : x.rotateLeft 0 = x := by
  refine BitVec.eq_of_getMsbD_eq fun i hi => ?_
  simp [BitVec.getMsbD_rotateLeft, hi, Nat.mod_eq_of_lt hi]

/-- A whole turn is none. -/
theorem rotateLeft_width {w : Nat} (x : BitVec w) : x.rotateLeft w = x := by
  rw [← BitVec.rotateLeft_mod_eq_rotateLeft, Nat.mod_self, rotateLeft_zero]

/-- The low bits move up and the `n` high bits re-enter below them. -/
theorem rotateLeft_eq_append {m n : Nat} (x : BitVec (m + n)) (hm : 0 < m) :
    x.rotateLeft n = x.extractLsb' 0 m ++ x.extractLsb' m n := by
  refine BitVec.eq_of_getLsbD_eq fun i hi => ?_
  rw [BitVec.rotateLeft_eq_rotateLeftAux_of_lt (by omega), BitVec.getLsbD_append]
  by_cases h : i < n
  · simp [BitVec.getLsbD_rotateLeftAux_of_lt h, h]
  · have him : i - n < m := by omega
    rw [BitVec.getLsbD_rotateLeftAux_of_ge (Nat.le_of_not_lt h)]
    simp [h, hi, him]

/-- Settles O23: `ROTL28` by 1 or 2 is the rotation of a 28-bit value. -/
theorem rotationIsCircular : Obligations.RotationIsCircular := by
  intro x n hn
  have h1 (y : KeyHalf) : rotl28 y 1 = y.rotateLeft 1 := rotl28_eq_rotateLeft y (by decide)
  have h2 (y : KeyHalf) : rotl28 y 2 = y.rotateLeft 2 := rotl28_eq_rotateLeft y (by decide)
  refine ⟨fun p hpos hle => ?_, ?_, ?_, ?_, ?_, ?_⟩
  · rw [rotl28_eq_rotateLeft x (by omega)]
    exact desBit_rotateLeft x n hpos hle
  · rcases hn with rfl | rfl <;> decide
  · rcases hn with rfl | rfl <;> decide
  · rw [h1, h1, h2, rotateLeft_rotateLeft]
  · rw [h1]
    exact rotateLeft_eq_append (m := 27) (n := 1) x (by decide)
  · rw [h2]
    exact rotateLeft_eq_append (m := 26) (n := 2) x (by decide)

/-! ### The schedule of a key -/

@[simp] theorem keySetOf_c (i : Nat) (c d : KeyHalf) : (keySetOf i c d).c = c := by
  cases i <;> rfl

@[simp] theorem keySetOf_d (i : Nat) (c d : KeyHalf) : (keySetOf i c d).d = d := by
  cases i <;> rfl

/-- Above index 0 the subkey is PC-2 of the halves. -/
theorem keySetOf_of_pos {i : Nat} (h : 1 ≤ i) (c d : KeyHalf) : keySetOf i c d = ⟨subkeyOf c d, c, d⟩ := by
  obtain ⟨j, rfl⟩ := Nat.exists_eq_add_of_le' h
  rfl

/-- Entry `i + 1` is made of the halves of entry `i`, rotated (R92). -/
theorem keySetAt_succ (key : Block) (i : Nat) :
    let c := rotl28 (keySetAt key i).c (shiftAt (i + 1))
    let d := rotl28 (keySetAt key i).d (shiftAt (i + 1))
    keySetAt key (i + 1) = ⟨subkeyOf c d, c, d⟩ := by
  simp only [keySetAt, keySetOf_c, keySetOf_d]
  rfl

/-- Settles O24: the entries of the schedule are those computed for each index. -/
theorem scheduleRecurrence : Obligations.ScheduleRecurrence := by
  intro key
  refine ⟨ksRead_keyschedFn key (by decide), fun i hi => ?_⟩
  rw [ksRead_keyschedFn key (show i < 17 by omega), ksRead_keyschedFn key (show i + 1 < 17 by omega)]
  exact keySetAt_succ key i

theorem sum_take_shift_succ {i : Nat} (h : i < 16) :
    (tableShift.take (i + 1 + 1)).sum = (tableShift.take (i + 1)).sum + shiftAt (i + 1) := by
  have hlt : i + 1 < tableShift.length := Nat.succ_lt_succ h
  rw [List.sum_take_succ _ _ hlt, shiftAt, tableRead, List.getD_eq_getElem _ _ hlt]

theorem shiftAt_le_two {i : Nat} (h : i ≤ 16) : shiftAt i ≤ 2 := by
  revert i
  decide

/-- `C[i]` and `D[i]` are `C[0]` and `D[0]` rotated by the running sum of the shifts. -/
theorem keyHalves_eq_rotateLeft (key : Block) {i : Nat} (h : i ≤ 16) :
    keyHalves key i = ((keyHalves key 0).1.rotateLeft (tableShift.take (i + 1)).sum,
      (keyHalves key 0).2.rotateLeft (tableShift.take (i + 1)).sum) := by
  induction i with
  | zero => simp [tableShift, rotateLeft_zero]
  | succ i ih =>
    have hshift : shiftAt (i + 1) < 28 := (shiftAt_le_two h).trans_lt (by decide)
    calc keyHalves key (i + 1)
        = ((keyHalves key i).1.rotateLeft (shiftAt (i + 1)), (keyHalves key i).2.rotateLeft (shiftAt (i + 1))) := by
          rw [← rotl28_eq_rotateLeft _ hshift, ← rotl28_eq_rotateLeft _ hshift, keyHalves]
      _ = _ := by rw [ih (by omega), rotateLeft_rotateLeft, rotateLeft_rotateLeft, sum_take_shift_succ h]

/-- Settles O25: the shifts sum to 28, the width of a half. -/
theorem keyHalvesComeBack : Obligations.KeyHalvesComeBack := by
  intro key
  refine ⟨?_, fun i hi => Prod.mk.inj (keyHalves_eq_rotateLeft key hi)⟩
  have hsum : (tableShift.take (16 + 1)).sum = 28 := by decide
  rw [keyHalves_eq_rotateLeft key le_rfl, hsum, rotateLeft_width, rotateLeft_width]

/-! ### The parity positions -/

/-- PC1 selects positions of the key, and no parity position (R75). -/
theorem tablePC1_positions {i : Nat} (h : i < 56) :
    1 ≤ tableRead tablePC1 i ∧ tableRead tablePC1 i ≤ 64 ∧ tableRead tablePC1 i % 8 ≠ 0 := by
  revert i
  decide

theorem pc1_eq_of_parity {key1 key2 : Block}
    (h : ∀ p, 1 ≤ p → p ≤ 64 → p % 8 ≠ 0 → desBit key1 p = desBit key2 p) : pc1 key1 = pc1 key2 := by
  refine BitVec.eq_of_getMsbD_eq fun i hi => ?_
  obtain ⟨hpos, hle, hparity⟩ := tablePC1_positions hi
  calc (pc1 key1).getMsbD i
      = desBit key1 (tableRead tablePC1 i) := getMsbD_perm key1 rfl hi
    _ = desBit key2 (tableRead tablePC1 i) := h _ hpos hle hparity
    _ = (pc1 key2).getMsbD i := (getMsbD_perm key2 rfl hi).symm

theorem keyHalves_eq_of_pc1_eq {key1 key2 : Block} (h : pc1 key1 = pc1 key2) (i : Nat) :
    keyHalves key1 i = keyHalves key2 i := by
  induction i with
  | zero => simp only [keyHalves, h]
  | succ i ih => simp only [keyHalves, ih]

/-- The schedule sees the key through `PC1` alone (R92). -/
theorem keyschedFn_factorsThrough_pc1 : Function.FactorsThrough keyschedFn pc1 := fun key1 key2 h =>
  ks_ext fun i hi => by
    rw [ksRead_keyschedFn _ hi, ksRead_keyschedFn _ hi, keySetAt, keySetAt, keyHalves_eq_of_pc1_eq h]

theorem natCard_bitVec (n : Nat) : Nat.card (BitVec n) = 2 ^ n := by
  rw [Nat.card_eq_fintype_card, ← FinEnum.card_eq_fintypeCard, FinEnum.card_bitVec]

/-- There are at most as many schedules as values of 56 bits. -/
theorem ncard_range_keyschedFn_le : (Set.range keyschedFn).ncard ≤ 2 ^ 56 := by
  obtain ⟨f, hf⟩ : ∃ f : BitVec 56 → Vector KeySet 17, keyschedFn = f ∘ pc1 :=
    (Function.factorsThrough_iff _).mp keyschedFn_factorsThrough_pc1
  calc (Set.range keyschedFn).ncard
      = (f '' Set.range pc1).ncard := by rw [hf, Set.range_comp]
    _ ≤ (Set.range pc1).ncard := Set.ncard_image_le
    _ ≤ Nat.card (BitVec 56) := Set.ncard_le_card _
    _ = 2 ^ 56 := natCard_bitVec 56

/-- Settles O26: PC1 selects 56 bits, none of them a parity position. -/
theorem parityHasNoEffect : Obligations.ParityHasNoEffect :=
  ⟨fun _ _ h => keyschedFn_factorsThrough_pc1 (pc1_eq_of_parity h), Set.finite_range _, ncard_range_keyschedFn_le⟩

end Sys2Proof.Machine
end

section
/-! PROOFS. The operation KEYSCHED on the registers (41_keysched.md): its two kinds of step as the rules print them (R98, R99),
its seventeen steps from a pending command (R93, R100), and the step that completes any operation (R165). -/

namespace Sys2Proof.Machine

/-! ### The two kinds of step -/

/-- The later steps of KEYSCHED (R99). -/
theorem blockStep_ksRound {s : State} (hm : s.mode = 4) (h0 : s.rnd ≠ 0) (h16 : s.rnd.toNat ≤ 16) :
    blockStep s = .next (ksRound s) := by
  rw [blockStep_keysched hm, keyschedStep, if_neg h0, if_pos h16]

theorem ksInit_eq (s : State) : ksInit s = { s with
    c := leftKeyHalf (pc1 s.key), d := rightKeyHalf (pc1 s.key)
    ks := s.ks.set 0 ⟨0, leftKeyHalf (pc1 s.key), rightKeyHalf (pc1 s.key)⟩, rnd := 1 } := by
  rw [← ks_setIfInBounds_eq_set]
  rfl

theorem ksRoundWrites_eq (s : State) {i : Nat} (hpos : 1 ≤ i) (h16 : i ≤ 16) :
    let c := rotl28 s.c (shiftAt i)
    let d := rotl28 s.d (shiftAt i)
    ksRoundWrites s i = { s with c := c, d := d, ks := s.ks.set i ⟨subkeyOf c d, c, d⟩ } := by
  intro c d
  rw [← keySetOf_of_pos hpos, ← ks_setIfInBounds_eq_set]
  rfl

/-- Settles O34: the first step is KS-Init, any other KS-Round, and both write inside the file. -/
theorem keySchedStepsAsPrinted : Obligations.KeySchedStepsAsPrinted := by
  intro s hm
  refine ⟨fun h0 => ?_, fun hpos h16 => ?_⟩
  · rw [blockStep_ksInit hm h0, ksInit_eq]
    rfl
  · have h0 : s.rnd ≠ 0 := fun h0 => by simp [h0] at hpos
    rw [blockStep_ksRound hm h0 h16, ksRound, ksRoundWrites_eq s hpos h16]
    rfl

/-! ### Seventeen steps -/

/-- The sixteenth KS-Round step of a sound KEYSCHED, every register of it (R99, R100). -/
theorem Sound.blockStep_completes_keysched {s : State} (h : Sound s) (hm : s.mode = 4) (h16 : s.rnd.toNat = 16) :
    blockStep s = .next { s with
      mode := 3, rnd := 0, ks := keyschedFn s.key, c := (keyHalves s.key 16).1, d := (keyHalves s.key 16).2 } := by
  have hdone : ScheduleDone (ksRoundWrites s 16) 16 := scheduleDone_ksRoundWrites (h.scheduleDone hm h16) (by decide)
  have h0 : s.rnd ≠ 0 := fun h0 => by simp [h0] at h16
  have hks : (ksRoundWrites s 16).ks = keyschedFn s.key := hdone.ks_eq
  have hhalves : ((ksRoundWrites s 16).c, (ksRoundWrites s 16).d) = keyHalves s.key 16 := hdone.halves
  rw [blockStep_ksRound hm h0 h16.le, ksRound, if_neg h16.not_lt, h16, ← hks, ← hhalves]
  rfl

/-- Only a cipher operation moves `L`, `R`, and no block step starts one. -/
theorem blockRun_halves {n : Nat} {s t : State} (hc : ¬ s.cipherBusy) (h : blockRun n s = .next t) :
    t.l = s.l ∧ t.r = s.r := by
  induction n generalizing s with
  | zero =>
    cases h
    exact ⟨rfl, rfl⟩
  | succ n ih =>
    obtain ⟨u, hu, hrun⟩ := blockRun_succ_next h
    have frame : BlockFrame s u := blockStep_frame hu
    obtain ⟨hl, hr⟩ := frame.halves.resolve_right hc
    have hcu : ¬ u.cipherBusy := fun hcu => by
      rcases frame.mode with hm | ⟨_, hm⟩
      · exact hc (by rwa [State.cipherBusy, ← hm])
      · exact hcu.mode_ne_three hm
    obtain ⟨hl', hr'⟩ := ih hcu hrun
    exact ⟨hl'.trans hl, hr'.trans hr⟩

/-- Before its last step a KEYSCHED has moved `RND`, `KS`, `C`, `D` only. -/
theorem exists_blockRun_keysched {s : State} {n : Nat} (hm : s.mode = 4) (h0 : s.rnd = 0) (hn : n < 17) :
    ∃ t, blockRun n s = .next t ∧ Sound t ∧
      t = { s with rnd := BitVec.ofNat 5 n, ks := t.ks, c := t.c, d := t.d } := by
  have hl : s.legalPair := .inr (.inr (.inl ⟨hm, by simp [h0]⟩))
  obtain ⟨t, hrun, ht⟩ := exists_blockRun_inProgress hl h0 (n := n) (by rw [hm]; exact hn)
  obtain ⟨hrdata, hturns⟩ := blockRun_rdata_turns hrun
  obtain ⟨hhl, hhr⟩ := blockRun_halves (fun hc => hc.mode_ne_four hm) hrun
  have hrnd : t.rnd = BitVec.ofNat 5 n := by rw [← ht.rnd, BitVec.ofNat_toNat, BitVec.setWidth_eq]
  refine ⟨t, hrun, ht.sound, ?_⟩
  rw [← ht.mode, ← ht.key, ← ht.din, ← ht.dout, ← ht.refusal, ← ht.draws, ← hrdata, ← hturns, ← hhl, ← hhr, ← hrnd]

/-- Seventeen block steps perform a pending KEYSCHED (R100). -/
theorem blockRun_keysched {s : State} (hm : s.mode = 4) (h0 : s.rnd = 0) :
    blockRun 17 s = .next { s with
      mode := 3, ks := keyschedFn s.key, c := (keyHalves s.key 16).1, d := (keyHalves s.key 16).2 } := by
  obtain ⟨t, hrun, hsound, ht⟩ := exists_blockRun_keysched (n := 16) hm h0 (by decide)
  have hlast := hsound.blockStep_completes_keysched (by rw [ht]; exact hm) (by rw [ht]; rfl)
  rw [blockRun_snoc hrun hlast, ht, ← h0]

/-- While KEYSCHED runs, every write, every command and every read of the file is refused (R164). -/
theorem exec_refused_of_keysched {i : Instr} {s : State} (hm : s.mode = 4) (hi : i.isKsRead = true ∨ i.isRead = false) :
    ∃ r, exec i s = .refused r := by
  have hbusy (t : State) : ∃ r, whenIdle s t = .refused r := ⟨_, whenIdle_busy t (by simp [hm])⟩
  have hread (j : BitVec 5) (view : KeySet → Block) : ∃ r, answerKs s j view = .refused r := by
    by_cases hj : j.toNat ≤ 16
    · exact ⟨_, answerKs_busy view hj hm⟩
    · exact ⟨_, answerKs_outOfRange s view hj⟩
  cases i with
  | rddin | rddout | rdkey | rdmode => simp [Instr.isKsRead, Instr.isRead] at hi
  | rdksk j => exact hread j fun e => zext64 (subkeyImage e.k)
  | rdksc j => exact hread j fun e => zext64 (halfImage e.c)
  | rdksd j => exact hread j fun e => zext64 (halfImage e.d)
  | wrdin | wrkey | dec | enc | genkey | done | keysched => exact hbusy _

/-- Settles O37: sixteen steps in progress, then the last. -/
theorem keySchedTakesSeventeenSteps : Obligations.KeySchedTakesSeventeenSteps := by
  intro s hm h0
  refine ⟨blockRun_keysched hm h0, blockAtomic_keysched hm, fun k => ?_⟩
  obtain ⟨t, hrun, _, ht⟩ := exists_blockRun_keysched hm h0 k.isLt
  exact ⟨t, hrun, ht, fun i hi => exec_refused_of_keysched (by rw [ht]; exact hm) hi⟩

/-- Settles O40: the accepted command is a pending KEYSCHED. -/
theorem keySchedCompletes : Obligations.KeySchedCompletes := by
  intro s hm h0
  refine ⟨(s.withMode 4).withAnswer none, acceptCommand_idle 4 hm, rfl, ?_⟩
  rw [blockRun_keysched (s := (s.withMode 4).withAnswer none) rfl h0, hm]
  rfl

/-! ### The step that completes an operation -/

/-- Inversion of a block step that completes a sound operation: GENKEY's one step, the Final step, or the sixteenth KS-Round
step. -/
theorem Sound.blockStep_completion_cases {s t : State} (hs : Sound s) (h : blockStep s = .next t) (hm : s.mode ≠ 3)
    (ht : t.mode = 3) :
    (s.mode = 2 ∧ s.rnd = 0 ∧ t = genkeyEffect s) ∨
    (s.cipherBusy ∧ t = (s.withDout (process s.din s.ks s.direction)).finish) ∨
    (s.mode = 4 ∧ ∃ c d, t = ((s.withKeyHalves c d).withKs (keyschedFn s.key)).finish) := by
  rcases blockStep_cases h with ⟨h3, _⟩ | hgenkey | ⟨_, _, rfl⟩ | ⟨_, _, _, rfl⟩ | ⟨hc, h17, _⟩ | ⟨_, _, rfl⟩ |
    ⟨_, _, _, rfl⟩ | ⟨h4, h16, _⟩
  · exact absurd h3 hm
  · exact .inl hgenkey
  · exact absurd ht hm
  · exact absurd ht hm
  · rw [hs.blockStep_final hc (by rw [h17]; rfl)] at h
    exact .inr (.inl ⟨hc, (Host.Outcome.next.inj h).symm⟩)
  · exact absurd ht hm
  · exact absurd ht hm
  · obtain ⟨c, d, hlast⟩ := hs.blockStep_lastRound h4 h16
    rw [hlast] at h
    exact .inr (.inr ⟨h4, c, d, (Host.Outcome.next.inj h).symm⟩)

/-- Settles O51: a host transaction completes nothing, and a block step by the operation it completes. -/
theorem completionWritesTheOutput : Obligations.CompletionWritesTheOutput := by
  intro s t hinv hn h ht hm h3
  obtain ⟨hr, ⟨_, ts, hb⟩ | ⟨_, rest, i, _, _, hx⟩⟩ := step_agent_cases h hn ht
  · have hs : Sound (s.withTurns ts) := (hinv hr).withTurns ts
    rcases hs.blockStep_completion_cases hb hm h3 with ⟨hg, h0, rfl⟩ | ⟨hc, rfl⟩ | ⟨h4, c, d, rfl⟩
    · have hg : s.mode = 2 := hg
      have h0 : s.rnd = 0 := h0
      simp [genkeyEffect, hg, h0]
    · have hc : s.cipherBusy := hc
      rcases hc with hc | hc <;> simp [State.direction, hc]
    · have h4 : s.mode = 4 := h4
      simp [h4]
  · have hkept : t.mode = s.mode := (exec_mode hx).resolve_right fun hidle => hm hidle.1
    exact absurd (hkept.symm.trans h3) hm

end Sys2Proof.Machine
end

section
/-! PROOFS. The S-boxes and the round function (42_roundfn.md). An S-box row is a permutation of 0 to 15 (R120), so a lookup
determines its group once the row is known, and the substitution its operand once the outer bits are; `F` is addressed by
rows and columns (R111) and depends on its operands through their mix alone (R123). -/

namespace Sys2Proof.Machine

/-! ### A group, its row and its column -/

/-- Two joined values that are equal have equal parts. -/
theorem append_inj {v w : Nat} {a b : BitVec v} {c d : BitVec w} (h : a ++ c = b ++ d) : a = b ∧ c = d := by
  have hhigh := congrArg (BitVec.extractLsb' w v) h
  have hlow := congrArg (BitVec.extractLsb' 0 w) h
  rw [BitVec.extractLsb'_append_eq_left, BitVec.extractLsb'_append_eq_left] at hhigh
  rw [BitVec.extractLsb'_append_eq_right, BitVec.extractLsb'_append_eq_right] at hlow
  exact ⟨hhigh, hlow⟩

theorem sboxRow_append : ∀ (a b : Bool) (inner : BitVec 4),
    sboxRow (BitVec.ofBool a ++ inner ++ BitVec.ofBool b) = BitVec.ofBool a ++ BitVec.ofBool b := by decide

theorem sboxRow_eq_iff {x y : BitVec 6} :
    sboxRow x = sboxRow y ↔ x.getLsbD 5 = y.getLsbD 5 ∧ x.getLsbD 0 = y.getLsbD 0 := by
  constructor
  · intro h
    obtain ⟨h5, h0⟩ := append_inj h
    exact ⟨BitVec.ofBool_eq_iff_eq.mp h5, BitVec.ofBool_eq_iff_eq.mp h0⟩
  · rintro ⟨h5, h0⟩
    rw [sboxRow, sboxRow, h5, h0]

theorem eq_of_sboxRow_eq_of_sboxColumn_eq {x y : BitVec 6} (hrow : sboxRow x = sboxRow y)
    (hcol : sboxColumn x = sboxColumn y) : x = y := by
  obtain ⟨h5, h0⟩ := sboxRow_eq_iff.mp hrow
  have hinner : ∀ j, j < 4 → x.getLsbD (1 + j) = y.getLsbD (1 + j) := fun j hj => by
    simpa [sboxColumn, hj] using congrArg (BitVec.getLsbD · j) hcol
  refine BitVec.eq_of_getLsbD_eq fun i hi => ?_
  rcases (by omega : i = 0 ∨ i = 5 ∨ (1 ≤ i ∧ i - 1 < 4)) with rfl | rfl | ⟨hpos, hlt⟩
  · exact h0
  · exact h5
  · simpa [Nat.add_sub_cancel' hpos] using hinner (i - 1) hlt

/-- The row and the column as numbers, bit by bit (R58). -/
theorem sboxIndex_eq_bits : ∀ x : BitVec 6,
    sboxIndex x = 16 * (2 * (x.getLsbD 5).toNat + (x.getLsbD 0).toNat) +
      (8 * (x.getLsbD 4).toNat + 4 * (x.getLsbD 3).toNat + 2 * (x.getLsbD 2).toNat + (x.getLsbD 1).toNat) := by
  decide

/-! ### A table of values 0 to 15, row by row -/

/-- The row of table `T` that R111 numbers `row`, sixteen entries. -/
def tableRow (T : List Nat) (row : Nat) : List Nat := (T.drop (16 * row)).take 16

theorem tableRead_eq_tableRow_getD (T : List Nat) (row : Nat) {column : Nat} (h : column < 16) :
    tableRead T (row * 16 + column) = (tableRow T row).getD column 0 := by
  simp [tableRead, tableRow, List.getD_eq_getElem?_getD, h, Nat.mul_comm]

/-- R120: each printed row holds 0 to 15 once each. -/
theorem tableRow_tableS_perm_range :
    ∀ {g : Nat}, g < 8 → ∀ {row : Nat}, row < 4 → (tableRow (tableS g) row).Perm (List.range 16) := by
  decide +kernel

theorem tableRead_tableS_le {g : Nat} (hg : g < 8) {row column : Nat} (hrow : row < 4) (hcol : column < 16) :
    tableRead (tableS g) (row * 16 + column) ≤ 15 := by
  have hperm := tableRow_tableS_perm_range hg hrow
  have hlt : column < (tableRow (tableS g) row).length := by simpa [hperm.length_eq] using hcol
  have hmem := hperm.mem_iff.mp (List.getElem_mem hlt)
  rw [tableRead_eq_tableRow_getD _ _ hcol, List.getD_eq_getElem _ _ hlt]
  exact Nat.le_of_lt_succ (List.mem_range.mp hmem)

theorem column_eq_of_tableRead_eq {g row c d : Nat} (hg : g < 8) (hrow : row < 4) (hc : c < 16) (hd : d < 16)
    (h : tableRead (tableS g) (row * 16 + c) = tableRead (tableS g) (row * 16 + d)) : c = d := by
  have hperm := tableRow_tableS_perm_range hg hrow
  have hlen : (tableRow (tableS g) row).length = 16 := by simpa using hperm.length_eq
  have hnodup : (tableRow (tableS g) row).Nodup := hperm.nodup_iff.mpr List.nodup_range
  rw [tableRead_eq_tableRow_getD _ _ hc, tableRead_eq_tableRow_getD _ _ hd, List.getD_eq_getElem _ _ (by omega),
    List.getD_eq_getElem _ _ (by omega)] at h
  exact hnodup.getElem_inj_iff.mp h

/-! ### One lookup -/

theorem tableRead_sboxIndex_le {g : Nat} (hg : g < 8) (x : BitVec 6) : tableRead (tableS g) (sboxIndex x) ≤ 15 :=
  tableRead_tableS_le hg (sboxRow x).isLt (sboxColumn x).isLt

theorem toNat_sbox {g : Nat} (hg : g < 8) (x : BitVec 6) : (sbox g x).toNat = tableRead (tableS g) (sboxIndex x) :=
  Nat.mod_eq_of_lt (Nat.lt_succ_of_le (tableRead_sboxIndex_le hg x))

/-- In one row of an S-box, a lookup determines the group. -/
theorem eq_of_sbox_eq {g : Nat} (hg : g < 8) {x y : BitVec 6} (hrow : sboxRow x = sboxRow y)
    (h : sbox g x = sbox g y) : x = y := by
  have hread : tableRead (tableS g) (sboxIndex x) = tableRead (tableS g) (sboxIndex y) := by
    rw [← toNat_sbox hg, ← toNat_sbox hg, h]
  rw [sboxIndex, sboxIndex, ← hrow] at hread
  have hcol := column_eq_of_tableRead_eq hg (sboxRow x).isLt (sboxColumn x).isLt (sboxColumn y).isLt hread
  exact eq_of_sboxRow_eq_of_sboxColumn_eq hrow (BitVec.eq_of_toNat_eq hcol)

theorem sbox_bijective_of_outer {g : Nat} (hg : g < 8) (a b : Bool) :
    Function.Bijective fun inner : BitVec 4 => sbox g (BitVec.ofBool a ++ inner ++ BitVec.ofBool b) := by
  refine Finite.injective_iff_bijective.mp fun i j h => ?_
  have hgroup : BitVec.ofBool a ++ i ++ BitVec.ofBool b = BitVec.ofBool a ++ j ++ BitVec.ofBool b :=
    eq_of_sbox_eq hg (by rw [sboxRow_append, sboxRow_append]) h
  exact (append_inj (append_inj hgroup).1).2

/-! ### The eight groups -/

theorem getLsbD_sboxGroup (x : Subkey) (g : Nat) {j : Nat} (hj : j < 6) :
    (sboxGroup x g).getLsbD j = x.getLsbD (42 - 6 * g + j) := by
  simp [sboxGroup, hj]

theorem eq_of_sboxGroup_eq {x y : Subkey} (h : ∀ g, g < 8 → sboxGroup x g = sboxGroup y g) : x = y := by
  refine BitVec.eq_of_getLsbD_eq fun i hi => ?_
  have hpos : 42 - 6 * (7 - i / 6) + i % 6 = i := by omega
  have hj : i % 6 < 6 := Nat.mod_lt i (by decide)
  have hbit := congrArg (BitVec.getLsbD · (i % 6)) (h (7 - i / 6) (by omega))
  simpa only [getLsbD_sboxGroup _ _ hj, hpos] using hbit

theorem joinNibbles_inj {s t : Nat → BitVec 4} (h : joinNibbles s = joinNibbles t) {g : Nat} (hg : g < 8) : s g = t g := by
  obtain ⟨h, h7⟩ := append_inj h
  obtain ⟨h, h6⟩ := append_inj h
  obtain ⟨h, h5⟩ := append_inj h
  obtain ⟨h, h4⟩ := append_inj h
  obtain ⟨h, h3⟩ := append_inj h
  obtain ⟨h, h2⟩ := append_inj h
  obtain ⟨h0, h1⟩ := append_inj h
  interval_cases g <;> assumption

/-- Where a mask has a bit, two values whose masked difference is zero agree. -/
theorem getLsbD_eq_of_xor_and_eq_zero {w i : Nat} {x y m : BitVec w} (h : (x ^^^ y) &&& m = 0)
    (hm : m.getLsbD i = true) : x.getLsbD i = y.getLsbD i := by
  simpa [hm] using congrArg (BitVec.getLsbD · i) h

/-- The mask names the two outer bits of each group. -/
theorem sboxRow_sboxGroup_eq_of_mask {x y : Subkey} (h : (x ^^^ y) &&& 0x861861861861 = 0) {g : Nat} (hg : g < 8) :
    sboxRow (sboxGroup x g) = sboxRow (sboxGroup y g) := by
  have hmask : ∀ g, g < 8 → (0x861861861861 : Subkey).getLsbD (42 - 6 * g + 5) = true ∧
      (0x861861861861 : Subkey).getLsbD (42 - 6 * g + 0) = true := by decide
  obtain ⟨hhigh, hlow⟩ := hmask g hg
  rw [sboxRow_eq_iff]
  simp only [getLsbD_sboxGroup _ _ (by decide : 5 < 6), getLsbD_sboxGroup _ _ (by decide : 0 < 6)]
  exact ⟨getLsbD_eq_of_xor_and_eq_zero h hhigh, getLsbD_eq_of_xor_and_eq_zero h hlow⟩

/-- Settles O27: the printed rows are permutations, so each lookup determines its group within the row the outer bits
select, and the eight groups make up the value. -/
theorem sboxRowsArePermutations : Obligations.SboxRowsArePermutations :=
  ⟨fun _ hg => ⟨tableRead_sboxIndex_le hg, fun _ hrow => tableRow_tableS_perm_range hg hrow,
      sbox_bijective_of_outer hg⟩,
    fun _ _ houter hsub => eq_of_sboxGroup_eq fun _ hg =>
      eq_of_sbox_eq hg (sboxRow_sboxGroup_eq_of_mask houter hg) (joinNibbles_inj hsub hg)⟩

/-! ### The round function -/

/-- `F` is a function of the mix of its operands (R123). -/
theorem roundF_eq_of_mix (r : Half) (k : Subkey) : roundF r k = perm 32 tableP (substitute (perm 48 tableE r ^^^ k)) := rfl

theorem roundF_congr_mix {r1 r2 : Half} {k1 k2 : Subkey} (h : perm 48 tableE r1 ^^^ k1 = perm 48 tableE r2 ^^^ k2) :
    roundF r1 k1 = roundF r2 k2 := by
  rw [roundF_eq_of_mix, roundF_eq_of_mix, h]

theorem perm_tableE_zero : perm 48 tableE (0 : Half) = 0 := by decide +kernel

/-- Settles O28: the formula is the model's own (R110), a lookup addresses its table by the bits of its index (R111), two
halves with one image are written out, and a half of zeros leaves the mix to the subkey (R123). -/
theorem roundFunctionSeesOnlyTheMix : Obligations.RoundFunctionSeesOnlyTheMix := by
  refine ⟨fun _ _ => rfl, fun g x hg => ?_, by decide, by decide +kernel, ?_, fun _ _ _ _ => roundF_congr_mix,
    fun r k => roundF_congr_mix ?_⟩
  · simpa only [sboxIndex_eq_bits] using toNat_sbox hg x
  · exact ⟨0xB28FB1B8, 0xABEFB1B8, 0, by decide +kernel⟩
  · rw [perm_tableE_zero]
    exact BitVec.zero_xor.symm

end Sys2Proof.Machine
end

section
/-! PROOFS. The Feistel engine (43_blockcipher.md). A round undoes itself with the halves exchanged, so rounds run with the
subkeys in the opposite order lead back (R133, R136); on the registers the block steps walk through `(L[k], R[k])` to
`PROCESS` (R137 to R140), which is what ENC and DEC leave (R131, R132). -/

namespace Sys2Proof.Machine

/-! ### `PROCESS` -/

theorem joinHalves_halves (x : Block) : joinHalves (leftHalf x) (rightHalf x) = x :=
  (BitVec.extractLsb'_append_extractLsb'_eq_extractLsb' rfl).trans BitVec.extractLsb'_eq_self

@[simp] theorem leftHalf_joinHalves (a b : Half) : leftHalf (joinHalves a b) = a :=
  BitVec.extractLsb'_append_eq_left

@[simp] theorem rightHalf_joinHalves (a b : Half) : rightHalf (joinHalves a b) = b :=
  BitVec.extractLsb'_append_eq_right

/-- Settles O29: the sequences are the halves of the model's rounds. -/
theorem processRecurrence : Obligations.ProcessRecurrence := by
  intro b ks dir
  refine ⟨fun k => (feistelState b ks dir k).1, fun k => (feistelState b ks dir k).2, joinHalves_halves _,
    fun k _ => ⟨rfl, ?_⟩, rfl⟩
  cases dir <;> rfl

/-- A round undoes itself when the halves are exchanged before and after: `F` meets the same half twice. -/
theorem feistelRound_swap_feistelRound (k : Subkey) (lr : Half × Half) :
    feistelRound k (feistelRound k lr).swap = lr.swap := by
  simp [feistelRound, Prod.swap]

/-- The pre-output of one run is the start of the next, its halves exchanged (R79, R134). -/
theorem feistelState_cipherOutput (lr : Half × Half) (ks : Vector KeySet 17) (dir : Direction) :
    feistelState (cipherOutput lr) ks dir 0 = lr.swap := by
  simp [feistelState, cipherOutput, initialPerm_finalPerm, Prod.swap]

theorem cipherOutput_swap_start (b : Block) (ks : Vector KeySet 17) (dir : Direction) :
    cipherOutput (feistelState b ks dir 0).swap = b := by
  simp [feistelState, cipherOutput, joinHalves_halves, finalPerm_initialPerm]

section
variable {b c : Block} {ks ks' : Vector KeySet 17} {dir dir' : Direction}

/-- A run that starts at the exchanged end of another, and takes its subkeys in the opposite order, walks back through
its states. -/
theorem feistelState_backwards (hstart : feistelState c ks' dir' 0 = (feistelState b ks dir 16).swap)
    (hkeys : ∀ k, 1 ≤ k → k ≤ 16 → (ksRead ks' (subkeyIndex dir' k)).k = (ksRead ks (subkeyIndex dir (17 - k))).k)
    {j : Nat} (hj : j ≤ 16) : feistelState c ks' dir' j = (feistelState b ks dir (16 - j)).swap := by
  induction j with
  | zero => exact hstart
  | succ j ih =>
    have hkey := hkeys (j + 1) (by omega) hj
    obtain ⟨m, hm⟩ : ∃ m, 16 - j = m + 1 := ⟨15 - j, by omega⟩
    rw [show 17 - (j + 1) = m + 1 by omega] at hkey
    rw [show 16 - (j + 1) = m by omega]
    calc feistelState c ks' dir' (j + 1)
        = feistelRound (ksRead ks (subkeyIndex dir (m + 1))).k (feistelState c ks' dir' j) := by rw [← hkey]; rfl
      _ = feistelRound (ksRead ks (subkeyIndex dir (m + 1))).k (feistelState b ks dir (m + 1)).swap := by
        rw [ih (by omega), hm]
      _ = (feistelState b ks dir m).swap := feistelRound_swap_feistelRound _ _

/-- Two runs with the subkeys in opposite orders undo each other. -/
theorem process_process_of_reversed
    (hkeys : ∀ k, 1 ≤ k → k ≤ 16 → (ksRead ks' (subkeyIndex dir' k)).k = (ksRead ks (subkeyIndex dir (17 - k))).k) :
    process (process b ks dir) ks' dir' = b := by
  have hend : feistelState (process b ks dir) ks' dir' 16 = (feistelState b ks dir 0).swap :=
    feistelState_backwards (feistelState_cipherOutput _ _ _) hkeys le_rfl
  rw [process, hend, cipherOutput_swap_start]

theorem feistelState_congr
    (hkeys : ∀ k, 1 ≤ k → k ≤ 16 → (ksRead ks (subkeyIndex dir k)).k = (ksRead ks' (subkeyIndex dir' k)).k)
    {j : Nat} (hj : j ≤ 16) : feistelState b ks dir j = feistelState b ks' dir' j := by
  induction j with
  | zero => rfl
  | succ j ih => rw [feistelState, feistelState, hkeys (j + 1) (by omega) hj, ih (by omega)]

/-- `PROCESS` reads the schedule and the direction through the subkeys of its rounds alone (R130). -/
theorem process_congr
    (hkeys : ∀ k, 1 ≤ k → k ≤ 16 → (ksRead ks (subkeyIndex dir k)).k = (ksRead ks' (subkeyIndex dir' k)).k) :
    process b ks dir = process b ks' dir' :=
  congrArg cipherOutput (feistelState_congr hkeys le_rfl)

end

/-- Settles O30: the two directions take the subkeys in opposite orders. -/
theorem cipherRoundTrip : Obligations.CipherRoundTrip := by
  intro b ks
  refine ⟨process_process_of_reversed fun k _ _ => rfl, process_process_of_reversed fun k _ hk => ?_⟩
  have hindex : 17 - (17 - k) = k := by omega
  simp only [subkeyIndex, hindex]

/-! ### The key whose subkeys are all zero (R136) -/

theorem keyHalves_of_pc1_eq_zero {key : Block} (h : pc1 key = 0) (i : Nat) : keyHalves key i = (0, 0) := by
  induction i with
  | zero => rw [keyHalves, h]; rfl
  | succ i ih => simp [keyHalves, ih, rotl28]

theorem subkeyOf_zero : subkeyOf 0 0 = 0 := by decide +kernel

theorem subkey_eq_zero_of_pc1_eq_zero {key : Block} (h : pc1 key = 0) {i : Nat} (hpos : 1 ≤ i) (h16 : i ≤ 16) :
    (ksRead (keyschedFn key) i).k = 0 := by
  rw [ksRead_keyschedFn key (by omega), keySetAt, keySetOf_of_pos hpos, keyHalves_of_pc1_eq_zero h]
  exact subkeyOf_zero

/-- Settles O31: round by round the subkeys are the same, or for the inverse those of the opposite order; key
0101010101010101 has ones at parity positions only. -/
theorem directionIsScheduleOrder : Obligations.DirectionIsScheduleOrder := by
  refine ⟨fun b ks rev hrev => process_congr fun k hpos h16 => (hrev k hpos h16).symm, fun b ks hpal => ?_,
    fun i => subkey_eq_zero_of_pc1_eq_zero (by decide +kernel)⟩
  exact ⟨process_congr hpal, process_process_of_reversed hpal,
    process_process_of_reversed fun k hpos h16 => hpal (17 - k) (by omega) (by omega)⟩

/-! ### The steps of a cipher operation -/

section
variable {s : State}

theorem blockStep_cipherRound (hc : s.cipherBusy) (h0 : s.rnd ≠ 0) (h16 : s.rnd.toNat ≤ 16) :
    blockStep s = .next (cipherRound s.direction s) := by
  rw [blockStep_cipher hc, cipherStep, if_neg h0, if_pos h16]

theorem blockStep_cipherFinal (hc : s.cipherBusy) (h17 : s.rnd = 17) : blockStep s = .next (cipherFinal s) := by
  simp [blockStep_cipher hc, cipherStep, h17]

theorem subkeyIndex_direction (s : State) (k : Nat) :
    subkeyIndex s.direction k = if s.mode = 1 then k else 17 - k := by
  rw [State.direction]
  split <;> rfl

end

/-- Settles O33: which of the three steps it is goes by `RND`, which subkey the Round step takes by `MODE`. -/
theorem cipherStepsAsPrinted : Obligations.CipherStepsAsPrinted := by
  intro s hc
  refine ⟨fun h0 => ?_, fun hpos h16 => ?_, fun h17 => ?_⟩
  · rw [blockStep_cipherInit hc h0]
    rfl
  · have h0 : s.rnd ≠ 0 := fun h0 => by simp [h0] at hpos
    rw [blockStep_cipherRound hc h0 h16, cipherRound, subkeyIndex_direction]
    rfl
  · rw [blockStep_cipherFinal hc h17]
    rfl

/-! ### Eighteen steps -/

/-- A cipher operation pending in `s`, after the Init step and `k` rounds: `L`, `R` are `L[k]`, `R[k]` (R140). -/
def State.afterRound (s : State) (k : Nat) : State :=
  (s.withHalves (feistelState s.din s.ks s.direction k).1 (feistelState s.din s.ks s.direction k).2).withRnd
    (BitVec.ofNat 5 (k + 1))

section
variable {s : State} {k : Nat}

theorem toNat_rnd_afterRound (s : State) (hk : k ≤ 16) : (s.afterRound k).rnd.toNat = k + 1 := by
  simp [State.afterRound]
  omega

theorem cipherRound_afterRound (s : State) (hk : k < 16) :
    cipherRound s.direction (s.afterRound k) = s.afterRound (k + 1) := by
  have hrnd : (s.afterRound k).rnd + 1 = BitVec.ofNat 5 (k + 1 + 1) := (BitVec.ofNat_add (k + 1) 1).symm
  rw [cipherRound, toNat_rnd_afterRound s hk.le, hrnd]
  rfl

/-- `k + 1` block steps are the Init step and `k` rounds (R140). -/
theorem blockRun_afterRound (hc : s.cipherBusy) (h0 : s.rnd = 0) (hk : k ≤ 16) :
    blockRun (k + 1) s = .next (s.afterRound k) := by
  induction k with
  | zero => exact blockRun_snoc rfl (blockStep_cipherInit hc h0)
  | succ k ih =>
    have hrnd : (s.afterRound k).rnd.toNat = k + 1 := toNat_rnd_afterRound s (by omega)
    have hne : (s.afterRound k).rnd ≠ 0 := fun h => by simp [h] at hrnd
    have hstep : blockStep (s.afterRound k) = .next (cipherRound s.direction (s.afterRound k)) :=
      blockStep_cipherRound hc hne (by omega)
    rw [cipherRound_afterRound s hk] at hstep
    exact blockRun_snoc (ih (by omega)) hstep

/-- Eighteen block steps perform a pending cipher operation (R140). -/
theorem blockRun_cipher (hc : s.cipherBusy) (h0 : s.rnd = 0) :
    blockRun 18 s = .next { s with
      mode := 3, dout := process s.din s.ks s.direction
      l := (feistelState s.din s.ks s.direction 16).1, r := (feistelState s.din s.ks s.direction 16).2 } := by
  have hlast : blockStep (s.afterRound 16) = .next (cipherFinal (s.afterRound 16)) := blockStep_cipherFinal hc rfl
  rw [blockRun_snoc (blockRun_afterRound hc h0 le_rfl) hlast, h0]
  rfl

end

/-- Settles O36: the Init step and sixteen rounds, then the Final step. -/
theorem cipherTakesEighteenSteps : Obligations.CipherTakesEighteenSteps :=
  fun _ hc h0 => ⟨blockRun_cipher hc h0, fun k => blockRun_afterRound hc h0 (Nat.le_of_lt_succ k.isLt)⟩

/-! ### ENC and DEC -/

/-- Settles O38: the accepted command is a pending cipher operation in direction Encrypt. -/
theorem encCompletes : Obligations.EncCompletes := by
  intro s hm h0
  refine ⟨(s.withMode 1).withAnswer none, acceptCommand_idle 1 hm, rfl, ?_⟩
  rw [blockRun_cipher (s := (s.withMode 1).withAnswer none) (.inr rfl) h0, hm]
  rfl

/-- Settles O39: the accepted command is a pending cipher operation in direction Decrypt. -/
theorem decCompletes : Obligations.DecCompletes := by
  intro s hm h0
  refine ⟨(s.withMode 0).withAnswer none, acceptCommand_idle 0 hm, rfl, ?_⟩
  rw [blockRun_cipher (s := (s.withMode 0).withAnswer none) (.inl rfl) h0, hm]
  rfl

/-- Settles O44: ENC completes, WRDIN is performed on the idle core, DEC completes, and the two directions undo each other
under the one schedule. -/
theorem encryptThenDecryptRestoresBlock : Obligations.EncryptThenDecryptRestoresBlock := by
  intro s hm h0
  obtain ⟨a, ha, _, hb⟩ := encCompletes s hm h0
  obtain ⟨b, hb, hbm, hb0, hdout, hkey, hks⟩ : ∃ b, blockRun 18 a = .next b ∧ b.mode = 3 ∧ b.rnd = 0 ∧
      b.dout = process s.din s.ks .encrypt ∧ b.key = s.key ∧ b.ks = s.ks := ⟨_, hb, hm, h0, rfl, rfl, rfl⟩
  obtain ⟨e, he, _, hf⟩ := decCompletes ((b.withDin b.dout).withAnswer none) hbm hb0
  have hback : process b.dout b.ks .decrypt = s.din := by
    rw [hdout, hks]
    exact (cipherRoundTrip s.din s.ks).1
  exact ⟨a, b, _, e, _, ha, hb, whenIdle_idle _ hbm, he, hf, hbm, hback, hkey, hks⟩

end Sys2Proof.Machine
end

section
/-! PROOFS. The host transactions one by one (44_control_ops.md): a turn of the host runs the instruction its word decodes to
(R150), a write or a command is performed on an idle core and refused on a busy one (R164), and every command is the
acceptance of its code (R155). -/

namespace Sys2Proof.Machine

/-! ### A turn of the host -/

/-- Settles O8: the mark keeps what `exec` performs, and turns a refusal into the lost state. -/
theorem stepRunsDecodedInstruction : Obligations.StepRunsDecodedInstruction := by
  intro s w i rest hturns hr hd
  have hstep : step s = markRefusal (s.withTurns rest) (exec i (s.withTurns rest)) := by
    rw [step_host hr hturns, hostStep_ok hd]
  refine ⟨fun t h => ?_, fun r h => ⟨(s.withTurns rest).lose r, ?_, rfl, rfl⟩, exec_not_fault i _⟩
  · rw [hstep, h]
    rfl
  · rw [hstep, h]
    rfl

theorem refusedFor_of_decode_error {s : State} {w : HWord} {rest : List Turn} {e : WordRefusal}
    (hturns : s.turns = .host w :: rest) (hr : s.refusal = none) (he : decode w = .error e) :
    s.refusedFor (refusalOfWord e) := by
  refine ⟨(s.withTurns rest).lose (refusalOfWord e), ?_, rfl⟩
  rw [step_host hr hturns, hostStep_error he]
  rfl

/-! ### The three kinds of transaction -/

/-- A register read answers a value. -/
theorem exec_eq_answer {i : Instr} (hi : i.isRead = true) (hks : i.isKsRead = false) (s : State) :
    ∃ v, exec i s = answer s v := by
  cases i with
  | rddin | rddout | rdkey | rdmode => exact ⟨_, rfl⟩
  | rdksk | rdksc | rdksd => cases hks
  | wrdin | wrkey | dec | enc | genkey | done | keysched => cases hi

/-- A read of the key-schedule file answers one view of the entry it names. -/
theorem exec_eq_answerKs {i : Instr} (hks : i.isKsRead = true) (hwf : i.wf = true) :
    ∃ (j : BitVec 5) (view : KeySet → Block), j.toNat ≤ 16 ∧ ∀ s, exec i s = answerKs s j view := by
  cases i with
  | rdksk j => exact ⟨j, fun e => zext64 (subkeyImage e.k), of_decide_eq_true hwf, fun _ => rfl⟩
  | rdksc j => exact ⟨j, fun e => zext64 (halfImage e.c), of_decide_eq_true hwf, fun _ => rfl⟩
  | rdksd j => exact ⟨j, fun e => zext64 (halfImage e.d), of_decide_eq_true hwf, fun _ => rfl⟩
  | rddin | rddout | rdkey | rdmode | wrdin | wrkey | dec | enc | genkey | done | keysched => cases hks

/-- A write or a command looks at `MODE` alone to be performed or refused (R164). -/
theorem exec_eq_whenIdle {i : Instr} (hi : i.isRead = false) (s : State) : ∃ t, exec i s = whenIdle s t := by
  cases i with
  | wrdin | wrkey | dec | enc | genkey | done | keysched => exact ⟨_, rfl⟩
  | rddin | rddout | rdkey | rdmode | rdksk | rdksc | rdksd => cases hi

theorem exec_refused_of_busy {i : Instr} {s : State} (hi : i.isRead = false) (hm : s.mode ≠ 3) :
    exec i s = .refused .busyWrite := by
  obtain ⟨t, ht⟩ := exec_eq_whenIdle hi s
  rw [ht, whenIdle_busy t hm]

/-- A well-formed read is performed, busy or idle, but for a read of the file while KEYSCHED writes it (R164). -/
theorem exists_exec_read {i : Instr} {s : State} (hi : i.isRead = true) (hwf : i.wf = true)
    (hm : i.isKsRead = true → s.mode ≠ 4) : ∃ t, exec i s = .next t := by
  by_cases hks : i.isKsRead = true
  · obtain ⟨j, view, hj, he⟩ := exec_eq_answerKs hks hwf
    exact ⟨_, (he s).trans (answerKs_readable view hj (hm hks))⟩
  · obtain ⟨v, he⟩ := exec_eq_answer hi (eq_false_of_ne_true hks) s
    exact ⟨_, he⟩

/-- Settles O16: writes and commands, the reads of the file, and the other reads. -/
theorem busyCoreRefuses : Obligations.BusyCoreRefuses := by
  refine fun s => ⟨fun hm v i hi => ?_, fun hm i hks hwf => ?_, fun i => exists_exec_read⟩
  · have hwrite : i.isRead = false := by
      simp only [List.mem_cons, List.not_mem_nil, or_false] at hi
      rcases hi with rfl | rfl | rfl | rfl | rfl | rfl | rfl <;> rfl
    exact exec_refused_of_busy hwrite hm
  · obtain ⟨j, view, hj, he⟩ := exec_eq_answerKs hks hwf
    rw [he, answerKs_busy view hj hm]

/-- Settles O18: an idle core is not writing the file, and performs what looks at `MODE`. -/
theorem idleCorePerformsEveryTransaction : Obligations.IdleCorePerformsEveryTransaction := by
  intro s i hm hwf
  by_cases hi : i.isRead = true
  · exact exists_exec_read hi hwf fun _ => by simp [hm]
  · obtain ⟨t, ht⟩ := exec_eq_whenIdle (eq_false_of_ne_true hi) s
    exact ⟨_, ht.trans (whenIdle_idle t hm)⟩

/-! ### The data writes -/

/-- Settles O12: a write performed on an idle core only. -/
theorem writeDataInputWhenIdle : Obligations.WriteDataInputWhenIdle :=
  fun s v => ⟨whenIdle_idle (s.withDin v), exec_refused_of_busy rfl, rfl⟩

/-- The mask covers every position but the parity positions. -/
theorem desBit_eq_of_parityMask {x y : Block} (h : (x ^^^ y) &&& 0xFEFEFEFEFEFEFEFE = 0) {p : Nat} (hpos : 1 ≤ p)
    (hle : p ≤ 64) (hparity : p % 8 ≠ 0) : desBit x p = desBit y p := by
  have hmask : ∀ i, i < 64 → (i + 1) % 8 ≠ 0 → (0xFEFEFEFEFEFEFEFE : Block).getLsbD (63 - i) = true := by decide
  have hi : p - 1 < 64 := by omega
  have hbit := getLsbD_eq_of_xor_and_eq_zero h (hmask (p - 1) hi (by rwa [Nat.sub_add_cancel hpos]))
  rw [desBit, desBit, BitVec.getMsbD_eq_getLsbD, BitVec.getMsbD_eq_getLsbD, hbit]

/-- Settles O13: a write performed on an idle core only, and the schedule does not see the parity positions. -/
theorem writeKeyWhenIdle : Obligations.WriteKeyWhenIdle := by
  refine fun s v => ⟨whenIdle_idle (s.withKey v), exec_refused_of_busy rfl, rfl, whenIdle_idle (s.withKey s.key),
    fun h => ?_⟩
  obtain ⟨hschedule, _⟩ := parityHasNoEffect
  exact hschedule v s.key fun p => desBit_eq_of_parityMask h

/-! ### The commands -/

/-- Settles O15: the idle block agent has no step, and a busy one keeps `MODE` or completes. -/
theorem doneChangesNothing : Obligations.DoneChangesNothing :=
  fun s => ⟨fun hm => ⟨whenIdle_idle s hm, blockStep_idle hm⟩, exec_refused_of_busy rfl, rfl,
    fun _ h => (blockStep_frame h).mode.imp_right And.right⟩

/-- DONE is the acceptance of its code: an idle core holds it already (R153). -/
theorem exec_done_eq_acceptCommand (s : State) : exec .done s = acceptCommand s 3 := by
  by_cases hm : s.mode = 3
  · have hself : s.withMode 3 = s := by
      rw [← hm]
      rfl
    rw [acceptCommand, hself]
    rfl
  · rw [exec_refused_of_busy rfl hm, acceptCommand, whenIdle_busy _ hm]

/-- Every command is the acceptance of its code (R155). -/
theorem exec_eq_acceptCommand_of_decodeCode {c : BitVec 3} {i : Instr} (h : decodeCode c = .ok i) (s : State) :
    exec i s = acceptCommand s c := by
  rcases mode_cases c with rfl | rfl | rfl | rfl | rfl | hc
  · exact Except.ok.inj h ▸ rfl
  · exact Except.ok.inj h ▸ rfl
  · exact Except.ok.inj h ▸ rfl
  · exact Except.ok.inj h ▸ exec_done_eq_acceptCommand s
  · exact Except.ok.inj h ▸ rfl
  · cases (decodeCode_reserved hc).symm.trans h

/-- A `MODE` write past the two tests on its word is the acceptance of its code. -/
theorem exists_decode_command {w : HWord} (hd : w.digit = 0xB) (h0 : w.data >>> 3 = 0)
    (hc : ¬ 5 ≤ (w.data.setWidth 3).toNat) :
    ∃ i, decode w = .ok i ∧ ∀ s, exec i s = acceptCommand s (w.data.setWidth 3) := by
  rcases decodeCode_cases (w.data.setWidth 3) with ⟨_, i, hi, _⟩ | ⟨h5, _⟩
  · refine ⟨i, ?_, exec_eq_acceptCommand_of_decodeCode hi⟩
    rw [decode_command hd, decodeCommand, if_pos ((zeroAboveCode_iff w).mpr h0), code_eq_setWidth_data, hi]
  · exact absurd h5 hc

/-- Settles O14: the decoder makes the two tests on the word, `acceptCommand` the one on `MODE`. -/
theorem commandIsTestedInOrder : Obligations.CommandIsTestedInOrder := by
  refine fun s w rest hturns hr hd => ⟨?_, State.legalPair.rnd_eq_zero⟩
  have herror (e : WordRefusal) (he : decodeCommand w = .error e) : s.refusedFor (refusalOfWord e) :=
    refusedFor_of_decode_error hturns hr ((decode_command hd).trans he)
  split_ifs with h0 hc hm h3
  · exact herror .nonZeroReserved (decodeCommand_error_iff.mpr (.inl ⟨rfl, h0⟩))
  · exact herror .reservedCommand (decodeCommand_error_iff.mpr (.inr ⟨rfl, not_not.mp h0, hc⟩))
  all_goals
    obtain ⟨i, hi, he⟩ := exists_decode_command hd (not_not.mp h0) hc
    obtain ⟨hperformed, hrefused, _⟩ := stepRunsDecodedInstruction s w i rest hturns hr hi
  · obtain ⟨t, ht, hmark, _⟩ := hrefused .busyWrite ((he _).trans (whenIdle_busy _ hm))
    exact ⟨t, ht, hmark⟩
  · have hm : s.mode = 3 := not_not.mp hm
    rw [hperformed _ ((he _).trans (acceptCommand_idle _ hm)), h3, ← hm]
    rfl
  · exact hperformed _ ((he _).trans (acceptCommand_idle _ (not_not.mp hm)))

end Sys2Proof.Machine
end

section
/-! PROOFS. The refusals (60_exceptions.md): a turn of the host is refused exactly where `hostStep` answers so, for what its
word shows (R54) or for what `MODE` forbids of the instruction it decodes to (R164); no other turn sets the mark. -/

namespace Sys2Proof.Machine

/-! ### The instructions that look at `MODE`, by their words -/

/-- A write or a command is a word with `WE = 1` (R51). -/
theorem isRead_eq_false_iff_digit (i : Instr) : i.isRead = false ↔ 8 ≤ (encode i).digit.toNat := by
  cases i <;> simp [Instr.isRead, encode]

/-- A read of the file is a word with `WE = 0` and `SEL` 5 to 7 (R51). -/
theorem isKsRead_iff_digit (i : Instr) :
    i.isKsRead = true ↔ 5 ≤ (encode i).digit.toNat ∧ (encode i).digit.toNat ≤ 7 := by
  cases i <;> simp [Instr.isKsRead, encode]

/-- The words that decode are those R54 does not refuse. -/
theorem exists_decode_ok_iff (w : HWord) : (∃ i, decode w = .ok i) ↔ ¬ ∃ e, w.refusedFor e := by
  simp only [← decode_error_iff]
  cases decode w <;> simp

/-- The words of a kind of instruction that the first digit tells. -/
theorem exists_decode_kind_iff {p : Instr → Prop} {q : BitVec 4 → Prop} (h : ∀ i, p i ↔ q (encode i).digit) (w : HWord) :
    (∃ i, decode w = .ok i ∧ p i) ↔ (¬ ∃ e, w.refusedFor e) ∧ q w.digit := by
  rw [← exists_decode_ok_iff, ← exists_and_right]
  refine exists_congr fun i => and_congr_right fun hi => ?_
  rw [h, (decode_ok_iff.mp hi).2]

/-- What R54 leaves of the digits 8 to F. -/
theorem exists_decode_write_iff (w : HWord) :
    (∃ i, decode w = .ok i ∧ i.isRead = false) ↔
      w.digit = 0x8 ∨ w.digit = 0xA ∨ (w.digit = 0xB ∧ w.data.toNat ≤ 4) := by
  rw [exists_decode_kind_iff (q := fun d => 8 ≤ d.toNat) isRead_eq_false_iff_digit, exists_refusedFor_iff]
  simp only [List.mem_cons, List.not_mem_nil, or_false]
  bv_omega

/-- What R54 leaves of the digits 5 to 7. -/
theorem exists_decode_ksRead_iff (w : HWord) :
    (∃ i, decode w = .ok i ∧ i.isKsRead = true) ↔ 5 ≤ w.digit.toNat ∧ w.digit.toNat ≤ 7 ∧ w.data.toNat ≤ 16 := by
  rw [exists_decode_kind_iff (q := fun d => 5 ≤ d.toNat ∧ d.toNat ≤ 7) isKsRead_iff_digit, exists_refusedFor_iff]
  simp only [List.mem_cons, List.not_mem_nil, or_false]
  bv_omega

/-! ### Where the host's side refuses -/

/-- What a well-formed instruction is refused for: the two rows of R164. -/
theorem exec_refused_iff {i : Instr} {s : State} {r : Refusal} (hwf : i.wf = true) :
    exec i s = .refused r ↔
      (r = .busyWrite ∧ s.mode ≠ 3 ∧ i.isRead = false) ∨ (r = .busyScheduleRead ∧ s.mode = 4 ∧ i.isKsRead = true) := by
  constructor
  · intro h
    by_cases hi : i.isRead = true
    · by_cases hbusy : i.isKsRead = true ∧ s.mode = 4
      · obtain ⟨hks, hm⟩ := hbusy
        obtain ⟨j, view, hj, he⟩ := exec_eq_answerKs hks hwf
        cases ((he s).trans (answerKs_busy view hj hm)).symm.trans h
        exact .inr ⟨rfl, hm, hks⟩
      · obtain ⟨t, ht⟩ := exists_exec_read hi hwf (not_and.mp hbusy)
        cases ht.symm.trans h
    · have hwrite : i.isRead = false := eq_false_of_ne_true hi
      by_cases hm : s.mode = 3
      · obtain ⟨t, ht⟩ := idleCorePerformsEveryTransaction s i hm hwf
        cases ht.symm.trans h
      · cases (exec_refused_of_busy hwrite hm).symm.trans h
        exact .inl ⟨rfl, hm, hwrite⟩
  · rintro (⟨rfl, hm, hwrite⟩ | ⟨rfl, hm, hks⟩)
    · exact exec_refused_of_busy hwrite hm
    · obtain ⟨j, view, hj, he⟩ := exec_eq_answerKs hks hwf
      exact (he s).trans (answerKs_busy view hj hm)

/-- The rows of R172: the decoder's reasons by the word, then the two that need `MODE`. -/
theorem hostStep_refused_iff {w : HWord} {s : State} {r : Refusal} :
    hostStep w s = .refused r ↔
      (∃ e, r = refusalOfWord e ∧ w.refusedFor e) ∨
      (r = .busyWrite ∧ s.mode ≠ 3 ∧ ∃ i, decode w = .ok i ∧ i.isRead = false) ∨
      (r = .busyScheduleRead ∧ s.mode = 4 ∧ ∃ i, decode w = .ok i ∧ i.isKsRead = true) := by
  simp only [← decode_error_iff]
  cases hd : decode w with
  | ok i => simp [hostStep_ok hd, exec_refused_iff (decode_ok_iff.mp hd).1]
  | error e => simp [hostStep_error hd, @eq_comm _ r]

theorem exec_refusal {i : Instr} {s t : State} (h : exec i s = .next t) : t.refusal = s.refusal := by
  rcases exec_cases h with ⟨_, a, rfl⟩ | ⟨_, v, _, rfl⟩ | ⟨_, v, _, rfl⟩ | ⟨_, _, rfl⟩ | ⟨_, _, c, _, rfl⟩ <;> rfl

theorem hostStep_refusal {w : HWord} {s t : State} (h : hostStep w s = .next t) : t.refusal = s.refusal := by
  cases hd : decode w with
  | ok i => exact exec_refusal ((hostStep_ok hd s).symm.trans h)
  | error e => cases (hostStep_error hd s).symm.trans h

/-! ### The turn that sets the mark, and its reason -/

/-- The mark is set where the host's side refuses. -/
theorem refusedFor_iff_hostStep {s : State} {w : HWord} {rest : List Turn} {r : Refusal}
    (hturns : s.turns = .host w :: rest) (hr : s.refusal = none) :
    s.refusedFor r ↔ hostStep w (s.withTurns rest) = .refused r := by
  rw [State.refusedFor, step_host hr hturns]
  constructor
  · rintro ⟨t, ht, hmark⟩
    rcases markRefusal_next ht with h | ⟨x, hx, rfl⟩
    · cases (hr.symm.trans (hostStep_refusal h).symm).trans hmark
    · cases hmark
      exact hx
  · intro h
    exact ⟨(s.withTurns rest).lose r, by rw [h]; rfl, rfl⟩

theorem refusalOfWord_injective : Function.Injective refusalOfWord := by
  intro a b h
  cases a <;> cases b <;> cases h <;> rfl

theorem refusalOfWord_ne_busyWrite (e : WordRefusal) : refusalOfWord e ≠ .busyWrite := by
  cases e <;> decide

theorem refusalOfWord_ne_busyScheduleRead (e : WordRefusal) : refusalOfWord e ≠ .busyScheduleRead := by
  cases e <;> decide

/-- Settles O5: the decoder's five reasons by the word alone, the two of R164 by the instructions that decode. -/
theorem refusalReasonsInOrder : Obligations.RefusalReasonsInOrder := by
  intro s w rest hturns hr
  have hrefused (r : Refusal) := (refusedFor_iff_hostStep (r := r) hturns hr).trans hostStep_refused_iff
  have hword (e : WordRefusal) : s.refusedFor (refusalOfWord e) ↔ w.refusedFor e := by
    rw [hrefused]
    simp [refusalOfWord_injective.eq_iff, refusalOfWord_ne_busyWrite, refusalOfWord_ne_busyScheduleRead]
  refine ⟨hword .reservedSelect, hword .readOnlyWrite, hword .nonZeroReserved, hword .indexOutOfRange,
    hword .reservedCommand, ?busyWrite, ?busyScheduleRead⟩
  case busyWrite =>
    rw [hrefused, exists_decode_write_iff]
    simp [(refusalOfWord_ne_busyWrite _).symm]
  case busyScheduleRead =>
    rw [hrefused, exists_decode_ksRead_iff]
    simp [(refusalOfWord_ne_busyScheduleRead _).symm]

/-- A step of the block agent keeps the mark as it is, and a reset clears it: the turn that sets it is the host's. -/
theorem exists_host_of_refusedFor {s : State} {r : Refusal} (hr : s.refusal = none) (h : s.refusedFor r) :
    ∃ w rest, s.turns = .host w :: rest := by
  obtain ⟨t, ht, hmark⟩ := h
  have hblock {ts : List Turn} (hb : blockStep (s.withTurns ts) = .next t) : False := by
    cases (hr.symm.trans (blockStep_frame hb).refusal.symm).trans hmark
  rcases step_cases s with ⟨_, _, e⟩ | ⟨_, rest, _, e⟩ | ⟨_, w, rest, i, h0, _⟩ | ⟨_, w, rest, x, h0, _⟩ |
    ⟨data, rest, _, e⟩ | ⟨x, hx, _⟩
  · exact (hblock (ts := s.turns) (e.symm.trans ht)).elim
  · exact (hblock (e.symm.trans ht)).elim
  · exact ⟨w, rest, h0⟩
  · exact ⟨w, rest, h0⟩
  · cases e.symm.trans ht
    cases hmark
  · cases hr.symm.trans hx

/-- A refusal is a next state with the mark, never an outcome of the step (log 7). -/
theorem step_not_refused (s : State) (r : Refusal) : step s ≠ .refused r := by
  rcases step_cases s with ⟨_, _, e⟩ | ⟨_, rest, _, e⟩ | ⟨_, w, rest, i, _, _, e⟩ | ⟨_, w, rest, x, _, _, e⟩ |
    ⟨data, rest, _, e⟩ | ⟨x, _, _, e⟩ <;> rw [e]
  · exact blockStep_not_refused s r
  · exact blockStep_not_refused _ r
  · exact markRefusal_not_refused _ _ r
  all_goals exact nofun

/-- Settles O49: a host turn sets the mark, for a row of R172; a refused core keeps it, and a reset clears it. -/
theorem onlyTheHostIsRefused : Obligations.OnlyTheHostIsRefused := by
  refine fun s => ⟨fun r hr h => ?_, fun r hr hn => ⟨_, step_refused hr hn, rfl, rfl⟩,
    fun data rest hturns => ⟨_, step_reset hturns, rfl, rfl⟩, step_not_refused s⟩
  obtain ⟨w, rest, hturns⟩ := exists_host_of_refusedFor hr h
  refine ⟨⟨w, rest, hturns⟩, ?_⟩
  rcases hostStep_refused_iff.mp ((refusedFor_iff_hostStep hturns hr).mp h) with ⟨e, rfl, _⟩ | ⟨rfl, _⟩ | ⟨rfl, _⟩
  · cases e <;> decide
  · decide
  · decide

end Sys2Proof.Machine
end

section
/-! PROOFS. Reset and hazards (70_reset_and_hazards.md): each block step of an operation leaves fewer to take (R200), what a
step does is decided by what the relation `SameControl` compares, and that is no data (R202), and a cipher operation runs on
with another key (R195). -/

namespace Sys2Proof.Machine

/-! ### A busy core completes -/

/-- How many block steps the operation of `MODE` has still to take. -/
def State.stepsLeft (s : State) : Nat := opSteps s.mode - s.rnd.toNat

theorem State.stepsLeft_le (s : State) : s.stepsLeft ≤ 18 := (Nat.sub_le _ _).trans (opSteps_le s.mode)

/-- A block step of a busy core counts in `RND` or completes. -/
theorem blockStep_stepsLeft_lt {s t : State} (h : blockStep s = .next t) (hm : s.mode ≠ 3) :
    t.stepsLeft < s.stepsLeft := by
  rcases blockStep_cases h with ⟨h3, _⟩ | ⟨h2, h0, rfl⟩ | ⟨hc, h0, rfl⟩ | ⟨hc, _, h16, rfl⟩ | ⟨hc, h17, rfl⟩ |
    ⟨h4, h0, rfl⟩ | ⟨h4, _, h16, rfl⟩ | ⟨h4, h16, rfl⟩
  · exact absurd h3 hm
  · simp [State.stepsLeft, genkeyEffect, h2, h0]
  · simp [State.stepsLeft, cipherInit, opSteps_cipher hc, h0]
  · simp [State.stepsLeft, cipherRound, opSteps_cipher hc]
    omega
  · simp [State.stepsLeft, cipherFinal, opSteps_cipher hc, h17]
  · simp [State.stepsLeft, ksInit, h4, h0]
  · simp [State.stepsLeft, ksRoundWrites, h4]
    omega
  · simp [State.stepsLeft, ksRoundWrites, h4, h16]

/-- By the number of steps left: while the core is busy, a step leaves a sound state with fewer. -/
theorem exists_blockRun_idle {s : State} (hs : Sound s) :
    ∃ n, n ≤ s.stepsLeft ∧ ∃ t, blockRun n s = .next t ∧ t.mode = 3 := by
  induction hleft : s.stepsLeft using Nat.strong_induction_on generalizing s with
  | _ left ih =>
    subst hleft
    by_cases hm : s.mode = 3
    · exact ⟨0, Nat.zero_le _, s, rfl, hm⟩
    · obtain ⟨t, ht⟩ := exists_blockStep_next hs.legal
      have hlt : t.stepsLeft < s.stepsLeft := blockStep_stepsLeft_lt ht hm
      obtain ⟨n, hn, u, hu, hidle⟩ := ih t.stepsLeft hlt (blockStep_sound hs ht) rfl
      exact ⟨n + 1, Nat.succ_le_of_lt (hn.trans_lt hlt), u, (blockRun_succ_of_next ht).trans hu, hidle⟩

/-- Settles O54: no operation has more than eighteen steps left. -/
theorem busyCoreCompletes : Obligations.BusyCoreCompletes := by
  intro s hinv hr
  obtain ⟨n, hn, hidle⟩ := exists_blockRun_idle (hinv hr)
  exact ⟨n, hn.trans s.stepsLeft_le, hidle⟩

/-! ### What a step does is decided by no data -/

/-- What decides the kind of step of two states is the same: the turns to come, the mark and, of a core that is not refused,
`MODE` and `RND`. Of a refused core these two are free values (log 7). -/
structure SameControl (s1 s2 : State) : Prop where
  turns : s1.turns = s2.turns
  refusal : s1.refusal = s2.refusal
  mode : s1.refusal = none → s1.mode = s2.mode
  rnd : s1.refusal = none → s1.rnd = s2.rnd

/-- Two outcomes of the same kind: on to states of the same control, to the same fault, or refused for the same reason. -/
inductive SameOutcome : Out → Out → Prop where
  | next {t1 t2 : State} (h : SameControl t1 t2) : SameOutcome (.next t1) (.next t2)
  | fault (f : Fault) : SameOutcome (.fault f) (.fault f)
  | refused (r : Refusal) : SameOutcome (.refused r) (.refused r)

section
variable {s1 s2 : State} (h : SameControl s1 s2)
include h

/-! One rule per update: of the state's fields only four are compared. -/

theorem SameControl.withTurns (ts : List Turn) : SameControl (s1.withTurns ts) (s2.withTurns ts) :=
  { h with turns := rfl }

theorem SameControl.withMode (m : BitVec 3) : SameControl (s1.withMode m) (s2.withMode m) :=
  { h with mode := fun _ => rfl }

theorem SameControl.withRnd {m n : BitVec 5} (hmn : m = n) : SameControl (s1.withRnd m) (s2.withRnd n) :=
  { h with rnd := fun _ => hmn }

theorem SameControl.finish : SameControl s1.finish s2.finish := (h.withRnd rfl).withMode 3

theorem SameControl.lose (r : Refusal) : SameControl (s1.lose r) (s2.lose r) := ⟨h.turns, rfl, nofun, nofun⟩

theorem SameControl.afterReset (data : ResetData) : SameControl (takeReset data s1) (takeReset data s2) :=
  ⟨h.turns, rfl, fun _ => rfl, fun _ => rfl⟩

theorem SameControl.withAnswer (a b : Option Block) : SameControl (s1.withAnswer a) (s2.withAnswer b) := { h with }

theorem SameControl.withKey (a b : Block) : SameControl (s1.withKey a) (s2.withKey b) := { h with }

theorem SameControl.withDin (a b : Block) : SameControl (s1.withDin a) (s2.withDin b) := { h with }

theorem SameControl.withDout (a b : Block) : SameControl (s1.withDout a) (s2.withDout b) := { h with }

theorem SameControl.withHalves (a b c d : Half) : SameControl (s1.withHalves a b) (s2.withHalves c d) := { h with }

theorem SameControl.withKeyHalves (a b c d : KeyHalf) : SameControl (s1.withKeyHalves a b) (s2.withKeyHalves c d) :=
  { h with }

theorem SameControl.withKsEntry (i : Nat) (a b : KeySet) : SameControl (s1.withKsEntry i a) (s2.withKsEntry i b) :=
  { h with }

theorem SameControl.countDraw : SameControl s1.countDraw s2.countDraw := { h with }

theorem SameControl.ksRoundWrites (i : Nat) : SameControl (ksRoundWrites s1 i) (ksRoundWrites s2 i) :=
  (h.withKeyHalves _ _ _ _).withKsEntry _ _ _

end

section
variable {o1 o2 : Out}

theorem SameOutcome.next_of_next {t1 : State} (h : SameOutcome o1 o2) (h1 : o1 = .next t1) :
    ∃ t2, o2 = .next t2 ∧ SameControl t1 t2 := by
  subst h1
  cases h with
  | next h => exact ⟨_, rfl, h⟩

theorem SameOutcome.fault_of_fault {f : Fault} (h : SameOutcome o1 o2) (h1 : o1 = .fault f) : o2 = .fault f := by
  subst h1
  cases h
  rfl

/-- The mark put in the place of a refusal leaves nothing known of `MODE` and `RND`. -/
theorem SameOutcome.markRefusal {s1 s2 : State} (ho : SameOutcome o1 o2) (h : SameControl s1 s2) :
    SameOutcome (markRefusal s1 o1) (markRefusal s2 o2) := by
  cases ho with
  | next ht => exact .next ht
  | fault f => exact .fault f
  | refused r => exact .next (h.lose r)

end

section
variable {s1 s2 : State} (h : SameControl s1 s2) (hr : s1.refusal = none)
include h hr

/-! ### The host's transactions -/

theorem sameOutcome_whenIdle {t1 t2 : State} (ht : SameControl t1 t2) :
    SameOutcome (whenIdle s1 t1) (whenIdle s2 t2) := by
  have hmode := h.mode hr
  by_cases hm : s1.mode = 3
  · rw [whenIdle_idle t1 hm, whenIdle_idle t2 (hmode ▸ hm)]
    exact .next (ht.withAnswer _ _)
  · rw [whenIdle_busy t1 hm, whenIdle_busy t2 (hmode ▸ hm)]
    exact .refused _

theorem sameOutcome_answerKs (i : BitVec 5) (view : KeySet → Block) :
    SameOutcome (answerKs s1 i view) (answerKs s2 i view) := by
  have hmode := h.mode hr
  by_cases hi : i.toNat ≤ 16
  · by_cases hm : s1.mode = 4
    · rw [answerKs_busy view hi hm, answerKs_busy view hi (hmode ▸ hm)]
      exact .refused _
    · rw [answerKs_readable view hi hm, answerKs_readable view hi (hmode ▸ hm)]
      exact .next (h.withAnswer _ _)
  · rw [answerKs_outOfRange s1 view hi, answerKs_outOfRange s2 view hi]
    exact .refused _

/-- Performed or refused goes by `MODE`, and no transaction writes to `MODE` or `RND` what depends on data. -/
theorem sameOutcome_exec (i : Instr) : SameOutcome (exec i s1) (exec i s2) := by
  cases i with
  | rddin | rddout | rdkey | rdmode => exact .next (h.withAnswer _ _)
  | rdksk j => exact sameOutcome_answerKs h hr j fun e => zext64 (subkeyImage e.k)
  | rdksc j => exact sameOutcome_answerKs h hr j fun e => zext64 (halfImage e.c)
  | rdksd j => exact sameOutcome_answerKs h hr j fun e => zext64 (halfImage e.d)
  | wrdin v => exact sameOutcome_whenIdle h hr (h.withDin v v)
  | wrkey v => exact sameOutcome_whenIdle h hr (h.withKey v v)
  | done => exact sameOutcome_whenIdle h hr h
  | dec | enc | genkey | keysched => exact sameOutcome_whenIdle h hr (h.withMode _)

theorem sameOutcome_hostTurn (w : HWord) :
    SameOutcome (markRefusal s1 (hostStep w s1)) (markRefusal s2 (hostStep w s2)) := by
  cases hd : decode w with
  | error e =>
    rw [hostStep_error hd, hostStep_error hd]
    exact .next (h.lose _)
  | ok i =>
    rw [hostStep_ok hd, hostStep_ok hd]
    exact (sameOutcome_exec h hr i).markRefusal h

/-! ### The block agent's step -/

theorem sameOutcome_cipherStep (dir : Direction) : SameOutcome (cipherStep dir s1) (cipherStep dir s2) := by
  have hrnd := h.rnd hr
  rw [cipherStep, cipherStep, hrnd]
  split_ifs
  · exact .next ((h.withHalves _ _ _ _).withRnd rfl)
  · exact .next ((h.withHalves _ _ _ _).withRnd (by rw [hrnd]))
  · exact .next (h.withDout _ _).finish
  · exact .fault _

theorem sameOutcome_keyschedStep : SameOutcome (keyschedStep s1) (keyschedStep s2) := by
  have hrnd := h.rnd hr
  rw [keyschedStep, keyschedStep, ksRound, ksRound, hrnd]
  split_ifs
  · exact .next (((h.withKeyHalves _ _ _ _).withKsEntry _ _ _).withRnd rfl)
  · exact .next ((h.ksRoundWrites _).withRnd rfl)
  · exact .next (h.ksRoundWrites _).finish
  · exact .fault _

theorem sameOutcome_genkeyStep : SameOutcome (genkeyStep s1) (genkeyStep s2) := by
  have hrnd := h.rnd hr
  rw [genkeyStep, genkeyStep, hrnd]
  split_ifs
  · exact .next ((h.withKey _ _).countDraw.withMode 3)
  · exact .fault _

/-- Which row of the table of R18 it is, and what `MODE` and `RND` become, goes by `MODE` and `RND`. -/
theorem sameOutcome_blockStep : SameOutcome (blockStep s1) (blockStep s2) := by
  have hmode := h.mode hr
  rcases mode_cases s1.mode with hm | hm | hm | hm | hm | hm
  · rw [blockStep_dec hm, blockStep_dec (hmode ▸ hm)]
    exact sameOutcome_cipherStep h hr _
  · rw [blockStep_enc hm, blockStep_enc (hmode ▸ hm)]
    exact sameOutcome_cipherStep h hr _
  · rw [blockStep_genkey hm, blockStep_genkey (hmode ▸ hm)]
    exact sameOutcome_genkeyStep h hr
  · rw [blockStep_idle hm, blockStep_idle (hmode ▸ hm)]
    exact .next h
  · rw [blockStep_keysched hm, blockStep_keysched (hmode ▸ hm)]
    exact sameOutcome_keyschedStep h hr
  · rw [blockStep_reserved hm, blockStep_reserved (hmode ▸ hm)]
    exact .fault _

end

/-! ### Any step -/

/-- Every step keeps the relation: what two states do is the same for as long as they run. -/
theorem sameOutcome_step {s1 s2 : State} (h : SameControl s1 s2) : SameOutcome (step s1) (step s2) := by
  have hr2 := h.refusal.symm
  have ht2 := h.turns.symm
  rcases step_cases s1 with ⟨hr, ht, _⟩ | ⟨hr, rest, ht, _⟩ | ⟨hr, w, rest, _, ht, _⟩ | ⟨hr, w, rest, _, ht, _⟩ |
    ⟨data, rest, ht, _⟩ | ⟨x, hr, ht, _⟩
  · rw [step_noTurn hr ht, step_noTurn (hr2.trans hr) (ht2.trans ht)]
    exact sameOutcome_blockStep h hr
  · rw [step_block hr ht, step_block (hr2.trans hr) (ht2.trans ht)]
    exact sameOutcome_blockStep (h.withTurns rest) hr
  · rw [step_host hr ht, step_host (hr2.trans hr) (ht2.trans ht)]
    exact sameOutcome_hostTurn (h.withTurns rest) hr w
  · rw [step_host hr ht, step_host (hr2.trans hr) (ht2.trans ht)]
    exact sameOutcome_hostTurn (h.withTurns rest) hr w
  · rw [step_reset ht, step_reset (ht2.trans ht)]
    exact .next ((h.withTurns rest).afterReset data)
  · rw [step_refused hr ht, step_refused (hr2.trans hr) (ht2 ▸ ht), ht2]
    exact .next ((h.withTurns _).lose x)

/-- Settles O55: states that agree so have the same control, and every step keeps that. -/
theorem stepsDoNotDependOnData : Obligations.StepsDoNotDependOnData := by
  intro s1 s2 hmode hrnd hturns hrefusal
  have hstep := sameOutcome_step ⟨hturns, hrefusal, fun _ => hmode, fun _ => hrnd⟩
  refine ⟨fun t1 h1 => ?_, fun f h1 => hstep.fault_of_fault h1⟩
  obtain ⟨t2, h2, h⟩ := hstep.next_of_next h1
  exact ⟨t2, h2, h.turns.symm, h.refusal.symm, fun hr => ⟨(h.mode hr).symm, (h.rnd hr).symm⟩⟩

/-! ### Another key during a cipher operation -/

/-- The steps of a cipher operation neither read nor write `KEY` (R137 to R139). -/
theorem blockStep_withKey {s t : State} (hc : s.cipherBusy ∨ s.mode = 3) (h : blockStep s = .next t) (v : Block) :
    blockStep (s.withKey v) = .next (t.withKey v) := by
  rcases hc with hc | hm
  · have hcv : (s.withKey v).cipherBusy := hc
    rcases cipher_next (p := False) hc h with ⟨_, h0, rfl⟩ | ⟨_, h0, h16, rfl⟩ | ⟨_, h17, rfl⟩ | hf
    · exact blockStep_cipherInit hcv h0
    · exact blockStep_cipherRound hcv h0 h16
    · exact blockStep_cipherFinal hcv h17
    · exact hf.elim
  · cases (blockStep_idle hm).symm.trans h
    exact blockStep_idle hm

/-- A block step leaves a cipher operation in progress or completes it, and an idle core idle. -/
theorem cipherBusy_or_idle_of_blockStep {s t : State} (hc : s.cipherBusy ∨ s.mode = 3) (h : blockStep s = .next t) :
    t.cipherBusy ∨ t.mode = 3 := by
  rcases (blockStep_frame h).mode with hm | ⟨_, h3⟩
  · rwa [State.cipherBusy, hm]
  · exact .inr h3

theorem blockRun_withKey {n : Nat} {s t : State} (hc : s.cipherBusy ∨ s.mode = 3) (h : blockRun n s = .next t)
    (v : Block) : blockRun n (s.withKey v) = .next (t.withKey v) := by
  induction n generalizing s with
  | zero =>
    cases h
    rfl
  | succ n ih =>
    obtain ⟨u, hu, hrun⟩ := blockRun_succ_next h
    rw [blockRun_succ_of_next (blockStep_withKey hc hu v)]
    exact ih (cipherBusy_or_idle_of_blockStep hc hu) hrun

/-- Settles O56: the frames say who writes `KS`, and a run of a cipher operation, past its end too, does not see `KEY`. -/
theorem scheduleCanBeStale : Obligations.ScheduleCanBeStale := by
  refine ⟨fun _ _ _ => exec_ks, fun s t h hm => (blockStep_frame h).ks.resolve_right hm, fun s t v h => ?_,
    fun s t hm h => ?_, fun s t v n hc h => blockRun_withKey (.inl hc) h v⟩
  · obtain ⟨_, rfl⟩ := whenIdle_next h
    rfl
  · rw [blockStep_genkey hm, genkeyStep] at h
    split at h <;> cases h
    rfl

end Sys2Proof.Machine
end

section
/-! PROOFS. What is left of the step of the machine: the agents' turns as they stand (R150), the one fault (R18, log 8),
GENKEY's one step (R152), the image of a key half (R33), the words of 95_test_vectors.md, and what a reset leaves (R190,
R191). -/

namespace Sys2Proof.Machine

/-! ### The one fault -/

/-! Each operation has the one fault, that of a value of `RND` its rows of R18 do not name. -/

theorem cipherStep_fault {dir : Direction} {s : State} {f : Fault} (h : cipherStep dir s = .fault f) :
    f = .unreachableSequencer := by
  rcases cipherStep_cases dir s with ⟨_, e⟩ | ⟨_, _, e⟩ | ⟨_, e⟩ | ⟨_, e⟩ <;> cases e.symm.trans h
  rfl

theorem keyschedStep_fault {s : State} {f : Fault} (h : keyschedStep s = .fault f) : f = .unreachableSequencer := by
  rcases keyschedStep_cases s with ⟨_, e⟩ | ⟨_, _, e⟩ | ⟨_, e⟩ | ⟨_, e⟩ <;> cases e.symm.trans h
  rfl

theorem genkeyStep_fault {s : State} {f : Fault} (h : genkeyStep s = .fault f) : f = .unreachableSequencer := by
  rw [genkeyStep] at h
  split at h <;> cases h
  rfl

/-- The block agent never raises the source's two error kinds (R170, R173). -/
theorem blockStep_fault {s : State} {f : Fault} (h : blockStep s = .fault f) : f = .unreachableSequencer := by
  rcases mode_cases s.mode with hm | hm | hm | hm | hm | hm
  · exact cipherStep_fault ((blockStep_dec hm).symm.trans h)
  · exact cipherStep_fault ((blockStep_enc hm).symm.trans h)
  · exact genkeyStep_fault ((blockStep_genkey hm).symm.trans h)
  · cases (blockStep_idle hm).symm.trans h
  · exact keyschedStep_fault ((blockStep_keysched hm).symm.trans h)
  · cases (blockStep_reserved hm).symm.trans h
    rfl

/-- Inversion of a fault: only the block agent's step of a core that is not refused has one. -/
theorem step_fault {s : State} {f : Fault} (h : step s = .fault f) :
    s.refusal = none ∧ ∃ ts, blockStep (s.withTurns ts) = .fault f := by
  rcases step_cases s with ⟨hr, _, e⟩ | ⟨hr, rest, _, e⟩ | ⟨_, w, rest, i, _, _, e⟩ | ⟨_, w, rest, x, _, _, e⟩ |
    ⟨data, rest, _, e⟩ | ⟨x, _, _, e⟩
  · exact ⟨hr, s.turns, e.symm.trans h⟩
  · exact ⟨hr, rest, e.symm.trans h⟩
  · exact absurd (e.symm.trans h) (markRefusal_not_fault (exec_not_fault _ _ _))
  all_goals cases e.symm.trans h

/-- Settles O48: a fault is the block agent's, which has a step in every pair of R18. -/
theorem onlyUnreachablePairsFault : Obligations.OnlyUnreachablePairsFault := by
  intro s f h
  obtain ⟨hr, ts, hb⟩ := step_fault h
  refine ⟨blockStep_fault hb, fun hl => ?_, hr⟩
  have hl : (s.withTurns ts).legalPair := hl
  exact blockStep_of_legalPair hl f hb

/-! ### Turns, words and images -/

/-- Settles O9: each kind of turn by its law. -/
theorem blockAndResetTurns : Obligations.BlockAndResetTurns :=
  fun _ _ _ => ⟨step_block, step_reset, step_noTurn, blockStep_idle⟩

/-- Settles O7: each word is the H word of its instruction. -/
theorem listedWordsDecode : Obligations.ListedWordsDecode :=
  ⟨decodeInvertsEncode .rddin rfl, decodeInvertsEncode (.rdksk 16) rfl, decodeInvertsEncode (.wrdin 0x0123456789ABCDEF) rfl,
    decodeInvertsEncode (.wrkey 0x133457799BBCDFF1) rfl, decodeInvertsEncode .enc rfl, decodeInvertsEncode .keysched rfl⟩

/-- Settles O32: the image is the key half with four zero bits appended at the low end. -/
theorem halfImageIsLeftAligned : Obligations.HalfImageIsLeftAligned := by
  refine fun x => ⟨fun p hpos hle => ?_, fun p hpos hle => ?_⟩
  · have hp : ¬ 28 ≤ p - 1 := by omega
    rw [desBit, halfImage, BitVec.getMsbD_append, if_neg hp, desBit]
  · have hp : 28 ≤ p - 1 := by omega
    rw [desBit, halfImage, BitVec.getMsbD_append, if_pos hp]
    exact BitVec.getMsbD_zero

/-! ### GENKEY -/

/-- The one step of a pending GENKEY (R152). -/
theorem blockStep_genkeyEffect {s : State} (hm : s.mode = 2) (h0 : s.rnd = 0) : blockStep s = .next (genkeyEffect s) := by
  rw [blockStep_genkey hm, genkeyStep, if_pos h0]

/-- Settles O35: GENKEY is accepted on an idle core, and its one step leaves the core idle again. -/
theorem genkeyStoresADraw : Obligations.GenkeyStoresADraw := by
  intro s hm h0
  have hstep := blockStep_genkeyEffect (s := (s.withMode 2).withAnswer none) rfl h0
  refine ⟨_, acceptCommand_idle 2 hm, rfl, ?_⟩
  rw [hstep, hm]
  rfl

/-! ### Reset -/

/-- Settles O46: a reset state is idle with `RND = 0`. -/
theorem resetStateHasInv : Obligations.ResetStateHasInv :=
  ⟨fun _ _ _ _ => sound_of_idle rfl rfl, fun _ => sound_of_idle rfl rfl⟩

/-- Settles O58: the state after a reset is idle, and an idle core performs every transaction. -/
theorem resetLeavesTheCoreIdle : Obligations.ResetLeavesTheCoreIdle :=
  fun s data rest hturns => ⟨takeReset data (s.withTurns rest), step_reset hturns, rfl, rfl, rfl, rfl, rfl, rfl, rfl, rfl,
    rfl, rfl, rfl, blockStep_idle rfl, fun i => idleCorePerformsEveryTransaction _ i rfl⟩

/-- A reset keeps of the state the model's own turns and count alone (log 18). -/
theorem takeReset_congr {s1 s2 : State} (data : ResetData) (hturns : s1.turns = s2.turns) (hdraws : s1.draws = s2.draws) :
    takeReset data s1 = takeReset data s2 := by
  rw [takeReset, takeReset, hturns, hdraws]

/-- Settles O59: the two resets are of the same data, turns to come and count. -/
theorem resetForgetsTheState : Obligations.ResetForgetsTheState := by
  rintro s1 s2 hturns hdraws ⟨data, rest, h1⟩
  have h2 : s2.turns = .reset data :: rest := hturns.symm.trans h1
  have hsame : takeReset data (s1.withTurns rest) = takeReset data (s2.withTurns rest) := takeReset_congr data rfl hdraws
  rw [step_reset h1, step_reset h2, hsame]

end Sys2Proof.Machine
end
